-- ==== Sys2Proof/Word.lean ====
section
/-! DEFINITION. The words and numbers of the JM416: bytes, IDs, and the numbers that name antennas, slots, lanes, entries, contexts and groups (00_scope.md 1.4; 11 R180). -/

namespace Sys2Proof

/-- One byte on the Host Link or on a trunk line. -/
abbrev Byte := BitVec 8

/-- A beltpack ID, 24 bits (R180); 0x000000 and 0xFFFFFF are invalid. -/
abbrev BeltpackId := BitVec 24

/-- Antenna 0 to antenna 23; an antenna is named by its port. -/
abbrev AntennaNo := Fin 24

/-- Slot 0 to slot 7 of an antenna. -/
abbrev SlotNo := Fin 8

/-- Carriage lane 0 to lane 3 of an antenna. -/
abbrev LaneNo := Fin 4

/-- Entry 0 to entry 95 of the roster. -/
abbrev EntryNo := Fin 96

/-- Context 0 to context 7 of the Handoff Engine. -/
abbrev ContextNo := Fin 8

/-- A talk group, 1 to 63; an absent group is an absent value, not group 0. -/
abbrev Group := Fin 64

/-- Priority class 0 to 3; class 0 is the most important. -/
abbrev ClassNo := Fin 4

/-- A set of antennas: bit n is antenna n (R180). -/
abbrev AntennaSet := BitVec 24

/-- A set of conditions: one bit for each condition (12.6). -/
abbrev ConditionSet := BitVec 8

/-- A Nat as a byte. -/
def byte (n : Nat) : Byte := BitVec.ofNat 8 n

end Sys2Proof
end

