-- ==== Sys2Proof/Syntax.lean ====
section
/-! DEFINITION. The commands and events of the JM416: one constructor for each row of the opcode table. -/

namespace Sys2Proof

/-- How a host command names a beltpack (R3, R163): one entry byte, or three ID bytes. -/
inductive BeltpackRef where
  | compact (index : Byte)
  | extended (id : BeltpackId)
deriving DecidableEq, Repr

/-- The two forms of a Sighting (R58, R150). -/
inductive SightingForm where
  | compact (slot quality : Byte)
  | extended (id : BeltpackId) (quality : Byte)
deriving DecidableEq, Repr

/-- What is wrong with a host frame that ends badly (R165): its Check, its Kind or Code, or its Length. -/
inductive FrameError where
  | check | unknown | length
deriving DecidableEq, Repr

/-- The commands and events, one for each row of the opcode table. A field of a host command is the byte
(or ID) as the host sent it; a trunk port, context or entry concerned in an event of the part is its number. -/
inductive Instr where
  /-- RESET (R162): the RESET input or power-up. -/
  | reset
  /-- IDENTIFY (R177). -/
  | identify
  /-- READ_DOMAIN_STATUS (R174). -/
  | readDomainStatus
  /-- SET_LINK_RATE (R169). -/
  | setLinkRate (rate : Byte)
  /-- SET_NOTICE_MODE (R171). -/
  | setNoticeMode (mode : Byte) (selection : BitVec 16)
  /-- FETCH_NOTICE (R173). -/
  | fetchNotice
  /-- SET_POLICY_ITEM (R175). -/
  | setPolicyItem (item field : Byte)
  /-- READ_POLICY (R176). -/
  | readPolicy
  /-- TRUNK_START (R27). -/
  | trunkStart
  /-- TRUNK_STOP (R145). -/
  | trunkStop
  /-- READ_ANTENNA (R42). -/
  | readAntenna (antenna : Byte)
  /-- IN_SERVICE_ACTION (R35). -/
  | inServiceAction (antenna : Byte)
  /-- DRAIN_ACTION (R36). -/
  | drainAction (antenna : Byte)
  /-- OUT_OF_SERVICE_ACTION (R37). -/
  | outOfServiceAction (antenna : Byte)
  /-- FORCE_OUT (R38). -/
  | forceOut (antenna : Byte)
  /-- CLEAR_ANTENNA_FAULT (R33). -/
  | clearAntennaFault (antenna : Byte)
  /-- SET_PORT_LOOPBACK (R39). -/
  | setPortLoopback (antenna mode : Byte)
  /-- INJECT_SIGHTING (R161): the report's trunk payload. -/
  | injectSighting (antenna : Byte) (fields : List Byte)
  /-- INJECT_SEEK (R161). -/
  | injectSeek (antenna : Byte) (fields : List Byte)
  /-- INJECT_ARRIVAL (R161). -/
  | injectArrival (antenna : Byte) (fields : List Byte)
  /-- INJECT_SIGN_OFF (R161). -/
  | injectSignOff (antenna : Byte) (fields : List Byte)
  /-- ENROL_BELTPACK (R4). -/
  | enrolBeltpack (id : BeltpackId) (cls groupA groupB : Byte)
  /-- WITHDRAW_BELTPACK (R5). -/
  | withdrawBeltpack (ref : BeltpackRef)
  /-- READ_BELTPACK (R6). -/
  | readBeltpack (ref : BeltpackRef)
  /-- SET_GROUPS (R19). -/
  | setGroups (ref : BeltpackRef) (groupA groupB : Byte)
  /-- SET_CLASS (R20). -/
  | setClass (ref : BeltpackRef) (cls : Byte)
  /-- SET_PIN (R20). -/
  | setPin (ref : BeltpackRef) (pin : Byte)
  /-- DIRECT_HANDOFF (R178). -/
  | directHandoff (ref : BeltpackRef) (antenna : Byte)
  /-- CANCEL_REQUEST (R111). -/
  | cancelRequest (ref : BeltpackRef)
  /-- DETACH_BELTPACK (R16). -/
  | detachBeltpack (ref : BeltpackRef)
  /-- READ_CONDITIONS (R22). -/
  | readConditions (ref : BeltpackRef)
  /-- RESOLVE_FAULT_DISMISS (R130). -/
  | resolveFaultDismiss (ref : BeltpackRef)
  /-- RESOLVE_FAULT_RETRY (R131). -/
  | resolveFaultRetry (ref : BeltpackRef)
  /-- RESOLVE_FAULT_NEXT (R131). -/
  | resolveFaultNext (ref : BeltpackRef)
  /-- RESOLVE_FAULT_DETACH (R132). -/
  | resolveFaultDetach (ref : BeltpackRef)
  /-- SET_ADMISSION (R21). -/
  | setAdmission (ref : BeltpackRef) (admission : Byte)
  /-- READ_QUEUE (R90). -/
  | readQueue
  /-- READ_TRANSACTIONS (R114). -/
  | readTransactions
  /-- RECEIVE_ERROR (R165): a host frame that carries this Code ends badly. -/
  | receiveError (code : Byte) (error : FrameError)
  /-- GAP_TIMER_EXPIRY (R164). -/
  | gapTimerExpiry
  /-- COMMAND_FRAME_LOST (R166): a complete command frame ends. -/
  | commandFrameLost (code : Byte) (payload : List Byte)
  /-- FRAME_SENT (R168). -/
  | frameSent
  /-- BAD_TRUNK_FRAME (R152). -/
  | badTrunkFrame (port : AntennaNo)
  /-- TRUNK_GAP_EXPIRY (R152). -/
  | trunkGapExpiry (port : AntennaNo)
  /-- STATUS (R156). -/
  | status (port : AntennaNo) (mode faultFlag : Byte)
  /-- ACK (R156). -/
  | ack (port : AntennaNo) (orderType : Byte) (id : BeltpackId) (slot : Byte)
  /-- REFUSE (R156). -/
  | refuse (port : AntennaNo) (orderType : Byte) (id : BeltpackId) (slot reason : Byte)
  /-- SIGHTING (R59). -/
  | sighting (port : AntennaNo) (form : SightingForm)
  /-- SEEK (R72). -/
  | seek (port : AntennaNo) (id : BeltpackId) (quality : Byte)
  /-- ARRIVAL (R158). -/
  | arrival (port : AntennaNo) (id : BeltpackId) (slot : Byte)
  /-- SIGN_OFF (R17). -/
  | signOff (port : AntennaNo) (id : BeltpackId)
  /-- PROBE_TIMER_EXPIRY (R28). -/
  | probeTimerExpiry (port : AntennaNo)
  /-- PROBE_MISS (R30). -/
  | probeMiss (port : AntennaNo)
  /-- ORDER_TIMEOUT (R157). -/
  | orderTimeout (port : AntennaNo)
  /-- LOOPBACK_REPLY (R160). -/
  | loopbackReply (port : AntennaNo)
  /-- BEGIN_EXCHANGE (R154). -/
  | beginExchange (port : AntennaNo)
  /-- WAITING_POSTER_PLACED (R155). -/
  | waitingPosterPlaced (port : AntennaNo)
  /-- ARRIVAL_TIMER_EXPIRY (R101). -/
  | arrivalTimerExpiry (context : ContextNo)
  /-- LOST_WINDOW_EXPIRY (R13). -/
  | lostWindowExpiry (entry : EntryNo)
  /-- SETTLE_TIMER_EXPIRY (R14). -/
  | settleTimerExpiry (entry : EntryNo)
  /-- CANDIDATE_LIFETIME_EXPIRY (R63). -/
  | candidateLifetimeExpiry (entry : EntryNo) (antenna : AntennaNo)
  /-- NOT_BEFORE_EXPIRY (R86): the timer of the request held for this entry. -/
  | notBeforeExpiry (entry : EntryNo)
  /-- DISPATCH (R88). -/
  | dispatch
  /-- RXD_BYTE_TAKEN (R164). -/
  | rxdByteTaken (value : Byte)
  /-- TRUNK_RX_BYTE (R152). -/
  | trunkRxByte (port : AntennaNo) (value : Byte)
deriving DecidableEq, Repr

end Sys2Proof
end

