-- ==== Sys2Proof/Config.lean ====
section
/-! DEFINITION. What the part fixes (00_scope.md 1.4) and the one free value the spec leaves open: how much of a running timer is left when the host reads it. -/

namespace Sys2Proof.Config

/-- Requests the Request Queue holds (R78). -/
def queuePlaces : Nat := 16
/-- Notices the Notice Queue holds (R170). -/
def noticePlaces : Nat := 32
/-- Refusals the reply list holds (R162). -/
def replyPlaces : Nat := 16
/-- IDs the Stranger List holds (R77). -/
def strangerPlaces : Nat := 8
/-- Candidates a beltpack's list holds (R62). -/
def candidatePlaces : Nat := 4
/-- Pending orders an Order FIFO holds (R95, R149). -/
def fifoPlaces : Nat := 6
/-- The probe reply timeout, in ms (R154). -/
def probeReplyTimeout : Nat := 2
/-- Consecutive probe misses before Absent (R30). -/
def missLimit : Nat := 3
/-- Consecutive order timeouts before the fault marker is set (R31). -/
def orderMissLimit : Nat := 2
/-- The longest payload of a host frame (R163). -/
def hostPayloadLimit : Nat := 240
/-- The longest payload of a trunk frame (R150). -/
def trunkPayloadLimit : Nat := 16

/-- The time left on a running timer when it is read (R90, R114), before it is brought into the timer's
range. DESIGN CHOICE, log entry 3: the model counts no time, so nothing is known of this value. Safe. -/
opaque freeRemaining : Nat → Nat

end Sys2Proof.Config
end

