-- ==== Sys2Proof/Machine/State.lean ====
section
/-! DEFINITION. The state of the JM416 as plain data, block by block, and the state after reset. Every reset value is the spec's (R1, R24, R43, R45, R57, R77, R78, R91, R149, R162, R175) but for the model's own fields (log entries 3, 4, 18). -/

namespace Sys2Proof.Machine

/-! ### Why a step can stop -/

/-- Reasons to stop with a fault. The spec names no event that stops the part, so there is none. -/
inductive Fault where
deriving DecidableEq, Repr

/-- Reasons to stop for want of a meaning. -/
inductive Refusal where
  /-- An arm of exec whose instruction has no meaning yet; safe. No arm raises it. -/
  | notModelled (mnemonic : String)
deriving DecidableEq, Repr

/-! ### Conditions, causes and the roster (chapters 2, 5, 6, 8) -/

/-- The eight conditions, in order of reporting priority (R116). -/
inductive Condition where
  | srcLost | tgtLost | orderLate | noArrival | refused | noLane | noSlot | noTarget
deriving DecidableEq, Repr

/-- Why a request was raised; in order of rank (R79). -/
inductive Cause where
  | evacuation | attach | directed | drain | evict | fade | survey
deriving DecidableEq, Repr

/-- The five roster states (R1, 2.4). -/
inductive RosterState where
  | unattached | attaching | served | moving | lost
deriving DecidableEq, Repr

/-- Whether a beltpack may come on air by seeking (R21). -/
inductive Admission where
  | admitted | barred
deriving DecidableEq, Repr

/-- A candidate with its running lifetime timer, held as the ms it was started for (R57, R62). -/
structure Candidate where
  antenna : AntennaNo
  score : Byte
  lifetime : Nat
deriving DecidableEq, Repr

/-- What the Survey Unit keeps for an entry (R57). -/
structure Survey where
  servingScore : Option Byte := none
  candidates : List Candidate := []
  lead : Option AntennaNo := none
  leadCount : Nat := 0
  former : Option (AntennaNo × Byte) := none
deriving DecidableEq, Repr

/-- The posted fault record (R23). -/
structure PostedFault where
  reported : Condition
  current : ConditionSet
  target : Option AntennaNo
  cause : Cause
deriving DecidableEq, Repr

/-- A roster entry (R1). The queued-request field is the view State.queued (R2). A timer is absent while stopped
and holds the ms it was started for while it runs. -/
structure Entry where
  id : BeltpackId
  state : RosterState := .unattached
  cls : ClassNo
  groupA : Option Group
  groupB : Option Group
  pinned : Bool := false
  admission : Admission := .admitted
  serving : Option (AntennaNo × SlotNo) := none
  context : Option ContextNo := none
  settleTimer : Option Nat := none
  lostTimer : Option Nat := none
  windowExpired : Bool := false
  current : ConditionSet := 0
  accrued : ConditionSet := 0
  posted : Option PostedFault := none
  survey : Survey := {}
deriving DecidableEq, Repr

/-! ### Requests and contexts (chapters 6 and 7) -/

/-- A request (R78). -/
structure Request where
  entry : EntryNo
  cause : Cause
  cls : ClassNo
  explicit : Option AntennaNo
  exclusion : AntennaSet
  retry : Nat
  displaced : Bool
  notBefore : Option Nat
  order : Nat
deriving DecidableEq, Repr

/-- The shape of a transaction (R93). -/
inductive Kind where
  | move | summon | attach
deriving DecidableEq, Repr

/-- The step a transaction has reached (R91). -/
inductive Phase where
  | reserve | cue | summon | arrival | release
deriving DecidableEq, Repr

/-- The four orders (R150). -/
inductive OrderType where
  | reserve | cue | summon | release
deriving DecidableEq, Repr

/-- The awaited order of a context: its type and the port it was posted to. Its standing is the view
State.standing. -/
structure Awaited where
  type : OrderType
  port : AntennaNo
deriving DecidableEq, Repr

/-- A busy context (R91). -/
structure Context where
  entry : EntryNo
  cause : Cause
  cls : ClassNo
  kind : Kind
  source : Option (AntennaNo × SlotNo)
  explicit : Option AntennaNo
  target : Option AntennaNo := none
  targetSlot : Option SlotNo := none
  phase : Phase := .reserve
  tried : AntennaSet := 0
  exclusion : AntennaSet
  retry : Nat
  displaced : Bool
  restartUsed : Bool := false
  arrivalTimer : Option Nat := none
  awaited : Option Awaited := none
deriving DecidableEq, Repr

/-! ### Antennas and ports (chapters 3, 4 and 10) -/

/-- The part's reading of the line (R24). -/
inductive LinkState where
  | absent | listenOnly | serveCapable
deriving DecidableEq, Repr

/-- The host's wish for an antenna (R24, 3.6). -/
inductive AdminState where
  | inService | draining | outOfService
deriving DecidableEq, Repr

/-- The loopback modes (R39, R40). -/
inductive LoopbackMode where
  | off | ackAll | refuseReserves | silent
deriving DecidableEq, Repr

/-- A slot; in every state but Free it names the entry it belongs to (R43). -/
inductive Slot where
  | free
  | reserved (entry : EntryNo)
  | occupied (entry : EntryNo)
  | releasing (entry : EntryNo)
deriving DecidableEq, Repr

/-- A lane that carries a group, with its user count (R45). -/
structure Lane where
  group : Group
  users : Nat
deriving DecidableEq, Repr

/-- An antenna record (R24, R43, R45). -/
structure Antenna where
  link : LinkState := .absent
  fault : Bool := false
  admin : AdminState := .inService
  loopback : LoopbackMode := .off
  changed : Bool := false
  probeMisses : Nat := 0
  orderMisses : Nat := 0
  slots : Vector Slot 8 := Vector.replicate 8 .free
  lanes : Vector (Option Lane) 4 := Vector.replicate 4 none
deriving DecidableEq, Repr

/-- Who awaits the outcome of an order at a port (R95, R155, R156). -/
inductive Poster where
  | context (c : ContextNo)
  | slot (sl : SlotNo)
  | nobody
deriving DecidableEq, Repr

/-- What an order tells the unit besides the ID and the slot (R150). -/
inductive OrderBody where
  | reserve (groupA groupB : Option Group)
  | cue (target : AntennaNo)
  | summon
  | release
deriving DecidableEq, Repr

/-- An order posted to a port (R150, R155). -/
structure Order where
  body : OrderBody
  id : BeltpackId
  slot : SlotNo
  poster : Poster
deriving DecidableEq, Repr

/-- The frame of an exchange: a probe or one order (R154). -/
inductive Sent where
  | probe
  | order (o : Order)
deriving DecidableEq, Repr

/-- A reply as it is taken at a port (R156, R181); the reason of a Refuse is not kept. -/
inductive PortReply where
  | status (mode faultFlag : Byte)
  | ack (orderType : Byte) (id : BeltpackId) (slot : Byte)
  | refuse (orderType : Byte) (id : BeltpackId) (slot : Byte)
deriving DecidableEq, Repr

/-- The exchange in flight, its reply timer (ms it was started for), and the reply the internal responder has
prepared for it on a looped-back port (R154, R160). -/
structure Exchange where
  sent : Sent
  replyTimer : Nat
  prepared : Option PortReply
deriving DecidableEq, Repr

/-- The receiver of a trunk port: hunting, or inside a frame with the bytes after the lead byte (R152). -/
inductive TrunkReceiver where
  | hunting
  | inFrame (bytes : List Byte)
deriving DecidableEq, Repr

/-- A trunk port (R149). -/
structure Port where
  receiver : TrunkReceiver := .hunting
  fifo : List Order := []
  waiting : List Order := []
  inFlight : Option Exchange := none
  probeDue : Bool := false
  probeTimer : Option Nat := none
deriving DecidableEq, Repr

/-! ### The Host Link (chapter 11) -/

/-- The five link rates (R169). -/
inductive LinkRate where
  | bps57600 | bps115200 | bps230400 | bps460800 | bps921600
deriving DecidableEq, Repr

/-- How notices are delivered (R171). -/
inductive NoticeMode where
  | push | pull
deriving DecidableEq, Repr

/-- The refusal codes (12.6). -/
inductive RefusalCode where
  | check | length | gap | lost | unknown | badValue | noEntry | rosterFull | duplicate
  | inTransit | posted | queueFull | tooLate | notOpen | noLane | state
deriving DecidableEq, Repr

/-- Why a beltpack became Unattached, as the notice says it (R13, R16, R17). -/
inductive UnattachedReason where
  | window | signOff | detach
deriving DecidableEq, Repr

/-- How a drained antenna was emptied (R141). -/
inductive EmptiedBy where
  | moves | closing
deriving DecidableEq, Repr

/-- The disposition that a Condition Report names (R129). -/
inductive Disposition where
  | ended | next | reEnter | convert
deriving DecidableEq, Repr

/-- The 11 notices with what they carry (11.7, 12.5). -/
inductive Notice where
  | started
  | antennaChange (antenna : AntennaNo) (link : LinkState) (fault : Bool) (admin : AdminState)
      (loopback : LoopbackMode)
  | handoffDone (entry : EntryNo) (id : BeltpackId) (cause : Cause) (kind : Kind)
      (source : Option AntennaNo) (target : Option AntennaNo) (slot : Option SlotNo)
  | handoffHeld (entry : EntryNo) (id : BeltpackId) (reported : Condition) (current : ConditionSet)
      (target : Option AntennaNo) (cause : Cause)
  | conditionReport (entry : EntryNo) (id : BeltpackId) (reported : Condition) (current : ConditionSet)
      (target : Option AntennaNo) (disposition : Disposition)
  | attached (entry : EntryNo) (id : BeltpackId) (antenna : AntennaNo) (slot : SlotNo)
  | lost (entry : EntryNo) (id : BeltpackId) (antenna : Option AntennaNo)
  | unattached (entry : EntryNo) (id : BeltpackId) (reason : UnattachedReason)
  | drainComplete (antenna : AntennaNo) (emptiedBy : EmptiedBy)
  | strangerHeard (id : BeltpackId) (antenna : AntennaNo) (quality : Byte)
  | trunkStopped (entries contexts : Nat)
deriving DecidableEq, Repr

/-- The frames the part sends (R163). -/
inductive FrameKind where
  | answer | refusal | notice
deriving DecidableEq, Repr

/-- A host frame that the part sends: its Kind, Code and payload (R163). -/
structure HostFrame where
  kind : FrameKind
  code : Byte
  payload : List Byte
deriving DecidableEq, Repr

/-- The receiver of the Host Link: hunting, or inside a frame with the bytes after the sync byte (R164). -/
inductive HostReceiver where
  | hunting
  | inFrame (bytes : List Byte)
deriving DecidableEq, Repr

/-- The command in execution (R166): its code, the reply once built, whether the transmitter has begun it, how many
refusals of the reply list stand before it (R168), and the link rate it sets when it has been sent (R169). -/
structure Execution where
  code : Byte
  reply : Option HostFrame := none
  begun : Bool := false
  ahead : Nat
  newRate : Option LinkRate := none
deriving DecidableEq, Repr

/-- The latched flags of the Host Link (R174). -/
structure LatchedFlags where
  frameErrors : Bool := false
  trunkErrors : Bool := false
  stray : Bool := false
  noticesDiscarded : Bool := false
  antennaChangesSeen : Bool := false
deriving DecidableEq, Repr

/-- The Host Link (R162). The gap timer, ATTN and the bytes on TXD are views of these fields. -/
structure HostLink where
  rate : LinkRate := .bps115200
  receiver : HostReceiver := .hunting
  execution : Option Execution := none
  replies : List HostFrame := []
  transmitter : Option HostFrame := none
  mode : NoticeMode := .push
  selection : BitVec 16 := 0x07FF
  notices : List Notice := [.started]
  flags : LatchedFlags := {}
  domainAccrued : ConditionSet := 0
deriving DecidableEq, Repr

/-! ### The part -/

/-- The fields of policy items 1 to 16 after reset (R175). -/
def policyAfterReset : Vector Byte 16 :=
  #v[12, 3, 2, 40, 60, 20, 63, 20, 5, 15, 8, 1, 25, 1, 0, 1]

/-- The state of the part: one field for each block's store, then the model's own fields. -/
structure State where
  link : HostLink := {}
  policy : Vector Byte 16 := policyAfterReset
  roster : Vector (Option Entry) 96 := Vector.replicate 96 none
  strangers : List BeltpackId := []
  queue : List Request := []
  nextOrder : Nat := 0
  contexts : Vector (Option Context) 8 := Vector.replicate 8 none
  running : Bool := false
  antennas : Vector Antenna 24 := Vector.replicate 24 {}
  ports : Vector Port 24 := Vector.replicate 24 {}
  /-- The model's own: the index of the next free value (log entry 3). -/
  freeIndex : Nat := 0
  /-- The model's own: the commands that wait, first in first out (log entry 4). -/
  pending : List Instr := []
deriving DecidableEq, Repr

/-- The part right after the RESET input or power-up. -/
def State.reset : State := {}

end Sys2Proof.Machine
end

