-- ==== Sys2Proof/Machine/Ops.lean ====
section
/-! DEFINITION. Named operations over the blocks' stores: reading and writing an entry, context, antenna, port, slot; the policy quantities; searches in number order. -/

namespace Sys2Proof.Machine

/-! ### One place of each store -/

/-- The entry at an index of the roster, if any (R1). -/
def State.entry (s : State) (e : EntryNo) : Option Entry := s.roster.get e

/-- Writes one index of the roster. -/
def State.putEntry (s : State) (e : EntryNo) (x : Option Entry) : State :=
  { s with roster := s.roster.set e x }

/-- Changes an entry, if the index holds one. -/
def State.mapEntry (s : State) (e : EntryNo) (f : Entry → Entry) : State :=
  match s.entry e with
  | none => s
  | some x => s.putEntry e (some (f x))

/-- The transaction that a context runs, if it is busy (R91). -/
def State.ctx (s : State) (c : ContextNo) : Option Context := s.contexts.get c

/-- Writes one context: busy with a transaction, or free. -/
def State.putCtx (s : State) (c : ContextNo) (x : Option Context) : State :=
  { s with contexts := s.contexts.set c x }

/-- Changes a context, if it is busy. -/
def State.mapCtx (s : State) (c : ContextNo) (f : Context → Context) : State :=
  match s.ctx c with
  | none => s
  | some x => s.putCtx c (some (f x))

/-- An antenna record (R24). -/
def State.ant (s : State) (a : AntennaNo) : Antenna := s.antennas.get a

/-- Changes an antenna record. -/
def State.mapAnt (s : State) (a : AntennaNo) (f : Antenna → Antenna) : State :=
  { s with antennas := s.antennas.set a (f (s.ant a)) }

/-- A trunk port (R149). -/
def State.port (s : State) (a : AntennaNo) : Port := s.ports.get a

/-- Changes a trunk port. -/
def State.mapPort (s : State) (a : AntennaNo) (f : Port → Port) : State :=
  { s with ports := s.ports.set a (f (s.port a)) }

/-- Changes the Host Link. -/
def State.mapLink (s : State) (f : HostLink → HostLink) : State :=
  { s with link := f s.link }

/-- The Survey Unit's items of an entry changed (R57). -/
def State.mapSurvey (s : State) (e : EntryNo) (f : Survey → Survey) : State :=
  s.mapEntry e fun x => { x with survey := f x.survey }

/-! ### Slots -/

/-- The entry a slot names (R43). -/
def Slot.entry? : Slot → Option EntryNo
  | .free => none
  | .reserved e | .occupied e | .releasing e => some e

/-- A slot of an antenna (R43). -/
def State.slot (s : State) (a : AntennaNo) (sl : SlotNo) : Slot := (s.ant a).slots.get sl

/-- Writes a slot of an antenna; lanes are accounted elsewhere (R47, R51). -/
def State.setSlot (s : State) (a : AntennaNo) (sl : SlotNo) (v : Slot) : State :=
  s.mapAnt a fun r => { r with slots := r.slots.set sl v }

/-- Whether every slot of an antenna is Free. -/
def Antenna.allFree (r : Antenna) : Bool := r.slots.toList.all (· == .free)

/-- The lowest-numbered Free slot of an antenna (R47). -/
def Antenna.lowestFree (r : Antenna) : Option SlotNo :=
  (List.finRange 8).find? fun sl => r.slots.get sl == .free

/-- Whether an entry holds a slot in any state but Free at an antenna (R46). -/
def Antenna.holds (r : Antenna) (e : EntryNo) : Bool :=
  r.slots.toList.any fun v => v.entry? == some e

/-- Whether an entry holds a Reserved or Releasing slot at any antenna (R5, R19). -/
def State.holdsUnsettledSlot (s : State) (e : EntryNo) : Bool :=
  s.antennas.toList.any fun r => r.slots.toList.any fun v => v == .reserved e || v == .releasing e

/-! ### Carrying and open (R25) -/

/-- Serve-capable, not faulty, and In service or Draining. -/
def Antenna.carrying (r : Antenna) : Bool :=
  r.link == .serveCapable && !r.fault && r.admin != .outOfService

/-- Carrying and In service. -/
def Antenna.open (r : Antenna) : Bool := r.carrying && r.admin == .inService

/-! ### Searches -/

/-- Whether the roster has an entry with this ID at an index. -/
def State.hasId (s : State) (id : BeltpackId) (e : EntryNo) : Bool :=
  match s.entry e with
  | none => false
  | some x => x.id == id

/-- The index of the entry with an ID (R1: at most one). -/
def State.findId (s : State) (id : BeltpackId) : Option EntryNo :=
  (List.finRange 96).find? (s.hasId id)

/-- The lowest free index of the roster (R1). -/
def State.lowestIndex (s : State) : Option EntryNo :=
  (List.finRange 96).find? fun e => (s.entry e).isNone

/-- The lowest-numbered free context (R88). -/
def State.lowestContext (s : State) : Option ContextNo :=
  (List.finRange 8).find? fun c => (s.ctx c).isNone

/-- The number of entries held (R1). -/
def State.rosterCount (s : State) : Nat := (s.roster.toList.filter Option.isSome).length

/-- The number of busy contexts (R91). -/
def State.busyContexts (s : State) : Nat := (s.contexts.toList.filter Option.isSome).length

/-- The number of open antennas (R25). -/
def State.openAntennas (s : State) : Nat := (s.antennas.toList.filter Antenna.open).length

/-- The queued-request field of an entry: present while the Request Queue holds a request for it (R2). -/
def State.queued (s : State) (e : EntryNo) : Bool := s.queue.any fun r => r.entry == e

/-- The request queued for an entry (R80: at most one). -/
def State.requestOf (s : State) (e : EntryNo) : Option Request :=
  s.queue.find? fun r => r.entry == e

/-! ### Sets of antennas (R180) -/

/-- The set with one antenna. -/
def antennaBit (a : AntennaNo) : AntennaSet := BitVec.twoPow 24 a

/-- Membership in a set of antennas. -/
def inSet (a : AntennaNo) (t : AntennaSet) : Bool := t.getLsbD a

/-- The set of an antenna that may be absent. -/
def optionBit : Option AntennaNo → AntennaSet
  | none => 0
  | some a => antennaBit a

/-! ### Policy quantities (R175, 12.4) -/

/-- The stored field of an item, numbered from 0 for item 1. -/
def State.item (s : State) (i : Fin 16) : Nat := (s.policy.get i).toNat

/-- Item 1, score units. -/
def State.margin (s : State) : Nat := s.item 0
/-- Item 2, sightings; stored offset by one. -/
def State.dwell (s : State) : Nat := s.item 1 + 1
/-- Item 3, the shift k. -/
def State.smoothing (s : State) : Nat := s.item 2
/-- Item 4, a score. -/
def State.fadeFloor (s : State) : Nat := s.item 3
/-- Item 5, a score. -/
def State.entryFloor (s : State) : Nat := s.item 4
/-- Item 6, in ms. -/
def State.settleTime (s : State) : Nat := s.item 5 * 100
/-- Item 7, in ms; stored offset by one and scaled. -/
def State.arrivalWindow (s : State) : Nat := (s.item 6 + 1) * 4
/-- Item 8, in ms. -/
def State.orderTimeout (s : State) : Nat := s.item 7
/-- Item 9, in ms. -/
def State.probeInterval (s : State) : Nat := s.item 8 * 10
/-- Item 10, in ms. -/
def State.candidateLifetime (s : State) : Nat := s.item 9 * 100
/-- Item 11, in ms. -/
def State.lostWindow (s : State) : Nat := s.item 10 * 1000
/-- Item 13, in ms. -/
def State.retryDelay (s : State) : Nat := s.item 12 * 10
/-- Item 14, re-entries; stored offset by one. -/
def State.retryLimit (s : State) : Nat := s.item 13 + 1
/-- Item 15 as a set of conditions: bit n of the field is bit n + 2 of a condition set (12.4). -/
def State.enableSet (s : State) : ConditionSet := s.policy.get 14 <<< 2
/-- Item 16. -/
def State.forcedNotices (s : State) : Bool := s.item 15 == 1

/-- The fallback modes (R122). -/
inductive FallbackMode where
  | stay | next | displace | retry
deriving DecidableEq, Repr

/-- Item 12: 0 Stay, 1 Next, 2 Displace, 3 Retry. -/
def State.fallbackMode (s : State) : FallbackMode :=
  match s.item 11 with
  | 0 => .stay
  | 1 => .next
  | 2 => .displace
  | _ => .retry

end Sys2Proof.Machine
end

