-- ==== Sys2Proof/Machine/Layout.lean ====
section
/-! DEFINITION. Byte layouts and codes (chapter 12), the check of host frames (R163) and the CRC of trunk frames (R151). -/

namespace Sys2Proof.Machine

/-! ### Codes (12.6) -/

/-- The code of a condition, which is its reporting priority. -/
def Condition.code : Condition → Byte
  | .srcLost => 1 | .tgtLost => 2 | .orderLate => 3 | .noArrival => 4
  | .refused => 5 | .noLane => 6 | .noSlot => 7 | .noTarget => 8

/-- The code of a cause, which is its rank (R79). -/
def Cause.rank : Cause → Nat
  | .evacuation => 0 | .attach => 1 | .directed => 2 | .drain => 3
  | .evict => 4 | .fade => 5 | .survey => 6

/-- The code of a roster state. -/
def RosterState.code : RosterState → Nat
  | .unattached => 0 | .attaching => 1 | .served => 2 | .moving => 3 | .lost => 4

/-- The code of a kind. -/
def Kind.code : Kind → Nat
  | .move => 0 | .summon => 1 | .attach => 2

/-- The code of a phase. -/
def Phase.code : Phase → Nat
  | .reserve => 0 | .cue => 1 | .summon => 2 | .arrival => 3 | .release => 4

/-- The code of a refusal. -/
def RefusalCode.code : RefusalCode → Byte
  | .check => 0x01 | .length => 0x02 | .gap => 0x03 | .lost => 0x04 | .unknown => 0x05
  | .badValue => 0x10 | .noEntry => 0x11 | .rosterFull => 0x12 | .duplicate => 0x13
  | .inTransit => 0x14 | .posted => 0x15 | .queueFull => 0x16 | .tooLate => 0x17
  | .notOpen => 0x18 | .noLane => 0x19 | .state => 0x1A

/-- The code of a link state (12.5). -/
def LinkState.code : LinkState → Nat
  | .absent => 0 | .listenOnly => 1 | .serveCapable => 2

/-- The code of an admin state (12.5). -/
def AdminState.code : AdminState → Nat
  | .inService => 0 | .draining => 1 | .outOfService => 2

/-- The code of a loopback mode (12.3). -/
def LoopbackMode.code : LoopbackMode → Nat
  | .off => 0 | .ackAll => 1 | .refuseReserves => 2 | .silent => 3

/-- The code of an Unattached reason (12.5). -/
def UnattachedReason.code : UnattachedReason → Nat
  | .window => 0 | .signOff => 1 | .detach => 2

/-- The code of a disposition (12.5). -/
def Disposition.code : Disposition → Nat
  | .ended => 0 | .next => 1 | .reEnter => 2 | .convert => 3

/-- The trunk Type of an order (R150). -/
def OrderType.code : OrderType → Byte
  | .reserve => 0x02 | .cue => 0x03 | .summon => 0x04 | .release => 0x05

/-- The type of an order from what it carries. -/
def OrderBody.type : OrderBody → OrderType
  | .reserve _ _ => .reserve | .cue _ => .cue | .summon => .summon | .release => .release

/-! ### Common fields (R180) -/

/-- A Bool as a byte. -/
def flagByte (b : Bool) : Byte := if b then 1 else 0

/-- Bools as the bits of a byte, bit 0 first. -/
def flagBits (bs : List Bool) : Byte :=
  byte (bs.foldr (fun b n => 2 * n + b.toNat) 0)

/-- Three bytes, most significant first. -/
def bytes3 (v : BitVec 24) : List Byte :=
  [v.extractLsb' 16 8, v.extractLsb' 8 8, v.extractLsb' 0 8]

/-- An ID from its three bytes. -/
def id3 (x y z : Byte) : BeltpackId := x ++ y ++ z

/-- A group; an absent one is 0. -/
def groupByte : Option Group → Byte
  | none => 0
  | some g => byte g

/-- A number that may be absent; an absent one is 0xFF. -/
def optionByte {n : Nat} : Option (Fin n) → Byte
  | none => 0xFF
  | some a => byte a

/-! ### Host frames (R163) -/

/-- The exclusive-or of bytes. -/
def xorAll (bs : List Byte) : Byte := bs.foldl (· ^^^ ·) 0

/-- The Kind byte. -/
def FrameKind.code : FrameKind → Byte
  | .answer => 0x52 | .refusal => 0x53 | .notice => 0x54

/-- The bytes that the Check covers: Kind, Code, Length and payload. -/
def HostFrame.checked (f : HostFrame) : List Byte :=
  [f.kind.code, f.code, byte f.payload.length] ++ f.payload

/-- The bytes of a host frame on TXD. -/
def HostFrame.bytes (f : HostFrame) : List Byte :=
  [0xC5] ++ f.checked ++ [xorAll f.checked]

/-- The identity fields of Identify and of the Started notice (R177, 12.5). -/
def identity : List Byte :=
  [0x0E, 0x5A, 0x01, 0x01, 0xA0, 0x01, 24, 8, 4, 96, 16, 8, 32, 8]

/-- The place of a notice in the selection: notice code 0x80 + n has bit n (12.3). -/
def Notice.index : Notice → Nat
  | .started => 0 | .antennaChange .. => 1 | .handoffDone .. => 2 | .handoffHeld .. => 3
  | .conditionReport .. => 4 | .attached .. => 5 | .lost .. => 6 | .unattached .. => 7
  | .drainComplete .. => 8 | .strangerHeard .. => 9 | .trunkStopped .. => 10

/-- The notice code (11.7). -/
def Notice.code (n : Notice) : Byte := byte (0x80 + n.index)

/-- The payload of a notice (12.5). -/
def Notice.payload : Notice → List Byte
  | .started => identity
  | .antennaChange a l f m b => [byte a, byte l.code, flagByte f, byte m.code, byte b.code]
  | .handoffDone e id cause kind src tgt sl =>
    [byte e] ++ bytes3 id ++ [byte cause.rank, byte kind.code, optionByte src, optionByte tgt, optionByte sl]
  | .handoffHeld e id cond set tgt cause =>
    [byte e] ++ bytes3 id ++ [cond.code, set, optionByte tgt, byte cause.rank]
  | .conditionReport e id cond set tgt d =>
    [byte e] ++ bytes3 id ++ [cond.code, set, optionByte tgt, byte d.code]
  | .attached e id a sl => [byte e] ++ bytes3 id ++ [byte a, byte sl]
  | .lost e id a => [byte e] ++ bytes3 id ++ [optionByte a]
  | .unattached e id r => [byte e] ++ bytes3 id ++ [byte r.code]
  | .drainComplete a b => [byte a, match b with | .moves => 0 | .closing => 1]
  | .strangerHeard id a q => bytes3 id ++ [byte a, q]
  | .trunkStopped n m => [byte n, byte m]

/-- A notice as the frame that carries it (12.2). -/
def Notice.frame (n : Notice) : HostFrame :=
  { kind := .notice, code := n.code, payload := n.payload }

/-- A refusal frame (R163). -/
def refusalFrame (code : Byte) (r : RefusalCode) : HostFrame :=
  { kind := .refusal, code := code, payload := [r.code] }

/-- An answer frame (R163). -/
def answerFrame (code : Byte) (payload : List Byte) : HostFrame :=
  { kind := .answer, code := code, payload := payload }

/-! ### The check of trunk frames (R151) -/

/-- One nibble fed into the CRC, by the products of 0x1081. -/
def crcNibble (crc : BitVec 16) (n : BitVec 4) : BitVec 16 :=
  (crc >>> 4) ^^^ (((crc.extractLsb' 0 4) ^^^ n).zeroExtend 16 * 0x1081)

/-- One byte fed into the CRC, low nibble first. -/
def crcByte (crc : BitVec 16) (b : Byte) : BitVec 16 :=
  crcNibble (crcNibble crc (b.extractLsb' 0 4)) (b.extractLsb' 4 4)

/-- The CRC over bytes in the order they are sent; it starts at 0. -/
def crc (bs : List Byte) : BitVec 16 := bs.foldl crcByte 0

/-- The two check bytes, low-order byte first. -/
def checkBytes (v : BitVec 16) : List Byte := [v.extractLsb' 0 8, v.extractLsb' 8 8]

/-- The bytes of a trunk frame (R150). -/
def trunkFrame (type : Byte) (payload : List Byte) : List Byte :=
  let covered := [type, byte payload.length] ++ payload
  [0xD3] ++ covered ++ checkBytes (crc covered)

/-- The payload of an order (R150, 12.2); a Cue names the target antenna before the target slot. -/
def Order.payload (o : Order) : List Byte :=
  bytes3 o.id ++
    match o.body with
    | .reserve ga gb => [byte o.slot, groupByte ga, groupByte gb]
    | .cue a => [byte a, byte o.slot]
    | .summon | .release => [byte o.slot]

/-- The frame that carries a probe or an order. -/
def Sent.frame : Sent → List Byte
  | .probe => trunkFrame 0x01 []
  | .order o => trunkFrame o.body.type.code o.payload

/-! ### What the pins show -/

/-- The bytes of the frame in transmission on TXD, if any (R163, R168). -/
def State.txd (s : State) : List Byte :=
  match s.link.transmitter with
  | none => []
  | some f => f.bytes

/-- Whether ATTN is driven low (R172, R173): pull mode, and the Notice Queue holds a notice. -/
def State.attnLow (s : State) : Bool :=
  s.link.mode == .pull && !s.link.notices.isEmpty

/-- The bytes of the exchange in flight on a port's TX line; a looped-back port does not drive it (R40, R153). -/
def State.txLine (s : State) (a : AntennaNo) : List Byte :=
  match (s.ant a).loopback, (s.port a).inFlight with
  | .off, some x => x.sent.frame
  | _, _ => []

/-- Whether the 20 ms gap timer of the Host Link runs: from the sync byte until the frame ends (R164). -/
def State.gapTimerRuns (s : State) : Bool := s.link.receiver != .hunting

end Sys2Proof.Machine
end

