-- ==== Sys2Proof/Machine/Link.lean ====
section
/-! DEFINITION. The Host Link's shared operations: which frame is sent next (R168), the Notice Queue (R170), refusals in the reply list (R165, R166), and a host command from the end of its frame to its reply (R166, R167). -/

namespace Sys2Proof.Machine

/-! ### The transmitter (R168) -/

/-- Begins the answer (or refusal) of the command in execution, if it has been built and not begun. -/
def HostLink.beginReply (l : HostLink) (x : Execution) : HostLink :=
  match x.reply, x.begun with
  | some f, false => { l with transmitter := some f, execution := some { x with begun := true } }
  | _, _ => l

/-- Begins the oldest notice in push mode while no host frame is partly received (R168 step 4, R172). -/
def HostLink.beginNotice (l : HostLink) : HostLink :=
  match l.mode, l.receiver, l.notices with
  | .push, .hunting, n :: ns => { l with transmitter := some n.frame, notices := ns }
  | _, _, _ => l

/-- The choice of the next frame by an idle transmitter (R168): a refusal that stands before the answer, the
answer, the oldest refusal, the oldest notice. -/
def HostLink.choose (l : HostLink) : HostLink :=
  match l.transmitter with
  | some _ => l
  | none =>
    match l.execution, l.replies with
    | some x, r :: rs =>
      if 0 < x.ahead then
        { l with transmitter := some r, replies := rs, execution := some { x with ahead := x.ahead - 1 } }
      else l.beginReply x
    | some x, [] => l.beginReply x
    | none, r :: rs => { l with transmitter := some r, replies := rs }
    | none, [] => l.beginNotice

/-- The transmitter, if idle, chooses what to send (R168; log entry 7). -/
def State.wake (s : State) : State := s.mapLink HostLink.choose

/-! ### Latched flags (R174) and notices (R170) -/

/-- Sets the latched stray flag. -/
def State.latchStray (s : State) : State :=
  s.mapLink fun l => { l with flags := { l.flags with stray := true } }

/-- Sets the latched trunk errors flag. -/
def State.latchTrunkErrors (s : State) : State :=
  s.mapLink fun l => { l with flags := { l.flags with trunkErrors := true } }

/-- Sets the latched "antenna changes seen" flag. -/
def State.latchAntennaChange (s : State) : State :=
  s.mapLink fun l => { l with flags := { l.flags with antennaChangesSeen := true } }

/-- Whether a notice is selected; Handoff Held always is (R121, R170). -/
def HostLink.selects (l : HostLink) (n : Notice) : Bool :=
  n.index == 3 || l.selection.getLsbD n.index

/-- A notice handed to the Host Link (R170): dropped if not selected, placed if there is room, else discarded.
A notice that finds the transmitter free is begun at once (R168). -/
def HostLink.queueNotice (l : HostLink) (n : Notice) : HostLink :=
  if !l.selects n then l
  else if l.notices.length < Config.noticePlaces then
    HostLink.choose { l with notices := l.notices ++ [n] }
  else { l with flags := { l.flags with noticesDiscarded := true } }

/-- A block queues a notice (R170). -/
def State.queueNotice (s : State) (n : Notice) : State := s.mapLink (·.queueNotice n)

/-! ### Refusals in the reply list (R165, R166) -/

/-- CHECK, LENGTH, GAP and UNKNOWN set the frame errors flag; LOST does not. -/
def RefusalCode.isReceiveError : RefusalCode → Bool
  | .check | .length | .gap | .unknown => true
  | _ => false

/-- A refusal placed at the end of the reply list; with 16 held the frame is discarded with no reply, and that sets
the frame errors flag (R166). -/
def HostLink.refuseFrame (l : HostLink) (code : Byte) (r : RefusalCode) : HostLink :=
  let l := if r.isReceiveError then { l with flags := { l.flags with frameErrors := true } } else l
  if l.replies.length < Config.replyPlaces then
    { l with replies := l.replies ++ [refusalFrame code r] }
  else { l with flags := { l.flags with frameErrors := true } }

/-- The host frame that is being received ends: the receiver hunts and its gap timer is stopped (R164). -/
def State.endHostFrame (s : State) : State := s.mapLink fun l => { l with receiver := .hunting }

/-- A host frame that ends is refused without execution (R165, R166). -/
def State.refuseHostFrame (s : State) (code : Byte) (r : RefusalCode) : State :=
  (s.endHostFrame.mapLink (·.refuseFrame code r)).wake

/-! ### A host command (R166, R167) -/

/-- What a command answers at its owning block: a refusal, with no state changed, or an answer's payload and the state
it leaves. -/
inductive CommandReply where
  | refuse (r : RefusalCode)
  | answer (payload : List Byte) (s : State)
deriving DecidableEq, Repr

/-- The command is in execution from the end of its frame; the refusals now in the list stand before its answer. -/
def HostLink.beginExecution (l : HostLink) (code : Byte) : HostLink :=
  { l with execution := some { code := code, ahead := l.replies.length } }

/-- The reply of the command in execution is built (R167). -/
def HostLink.buildReply (l : HostLink) (f : HostFrame) : HostLink :=
  { l with execution := l.execution.map fun x => { x with reply := some f } }

/-- A command frame is accepted: its frame has ended and it is in execution, with no reply built. -/
def State.accept (s : State) (code : Byte) : State := s.endHostFrame.mapLink (·.beginExecution code)

/-- The reply of the command in execution is built, and the idle transmitter begins it (R167, R168). -/
def State.reply (s : State) (f : HostFrame) : State := (s.mapLink (·.buildReply f)).wake

/-- What the command's own work comes to: its refusal, with no state changed, or its answer. -/
def State.conclude (s : State) (code : Byte) : CommandReply → State
  | .refuse r => s.reply (refusalFrame code r)
  | .answer p s' => s'.reply (answerFrame code p)

/-- A complete command frame has ended (R166): refused with LOST while a command is in execution, else carried out by
its body, and its answer or refusal is built and sent as R168 chooses. -/
def State.runCommand (s : State) (code : Byte) (body : State → CommandReply) : State :=
  match s.link.execution with
  | some _ => s.refuseHostFrame code .lost
  | none => (s.accept code).conclude code (body (s.accept code))

/-- A step's outcome; every step of the part has a next state. -/
abbrev StepOutcome := Host.Outcome State Fault Refusal

/-- A host command as a step. -/
def hostCommand (code : Byte) (body : State → CommandReply) (s : State) : StepOutcome :=
  .next (s.wake.runCommand code body)

/-- An event of the part as a step; the idle transmitter has chosen before it (log entry 7). -/
def event (f : State → State) (s : State) : StepOutcome := .next (f s.wake)

end Sys2Proof.Machine
end

