-- ==== Sys2Proof/Machine/Flags.lean ====
section
/-! DEFINITION. Flags and condition sets: condition bits and priorities (R116, R118, 12.6), recording conditions (R22), and the change flag of an antenna (R41). -/

namespace Sys2Proof.Machine

/-! ### Conditions -/

/-- The bit of a condition in a condition set (12.6). -/
def Condition.bit (k : Condition) : ConditionSet := 1 <<< (k.code.toNat - 1)

/-- All conditions, highest priority first (R116). -/
def Condition.all : List Condition :=
  [.srcLost, .tgtLost, .orderLate, .noArrival, .refused, .noLane, .noSlot, .noTarget]

/-- Whether a condition is in a set. -/
def Condition.within (k : Condition) (t : ConditionSet) : Bool := t &&& k.bit != 0

/-- The condition of highest priority in a set (R118). -/
def reportedCondition (t : ConditionSet) : Option Condition := Condition.all.find? (·.within t)

/-- SRCLOST and TGTLOST are forced (R117). -/
def Condition.forced : Condition → Bool
  | .srcLost | .tgtLost => true
  | _ => false

/-- Conditions disposed of are added to the current, the accrued and the domain accrued set (R22, R118). -/
def State.recordConditions (s : State) (e : EntryNo) (t : ConditionSet) : State :=
  (s.mapEntry e fun x => { x with current := x.current ||| t, accrued := x.accrued ||| t }).mapLink
    fun l => { l with domainAccrued := l.domainAccrued ||| t }

/-- ORDERLATE of a Release timeout in the Release phase: the accrued sets only (R22, R50). -/
def State.recordReleaseTimeout (s : State) (e : EntryNo) : State :=
  (s.mapEntry e fun x => { x with accrued := x.accrued ||| Condition.orderLate.bit }).mapLink
    fun l => { l with domainAccrued := l.domainAccrued ||| Condition.orderLate.bit }

/-! ### The change flag (R41) -/

/-- The four fields whose changes set the change flag. -/
def Antenna.watched (r : Antenna) : LinkState × Bool × AdminState × LoopbackMode :=
  (r.link, r.fault, r.admin, r.loopback)

/-- The change flag is set; where it was clear, the Antenna Change notice is queued with the fields as they stand, and
the latched flag is set whether or not the notice is selected. -/
def State.setChangeFlag (s : State) (a : AntennaNo) : State :=
  let r := s.ant a
  if r.changed then s
  else ((s.mapAnt a fun r => { r with changed := true }).latchAntennaChange).queueNotice
    (.antennaChange a r.link r.fault r.admin r.loopback)

/-- Changes an antenna record in one event; a changed link state, fault marker, admin state or loopback mode sets the
change flag once. -/
def State.changeAntenna (s : State) (a : AntennaNo) (f : Antenna → Antenna) : State :=
  let before := (s.ant a).watched
  let s := s.mapAnt a f
  if (s.ant a).watched = before then s else s.setChangeFlag a

end Sys2Proof.Machine
end

