-- ==== Sys2Proof/Machine/Operands.lean ====
section
/-! DEFINITION. Operands of host commands: numbers from bytes, groups, and the reference to a beltpack with its checks in the order of R3. -/

namespace Sys2Proof.Machine

/-- A byte as a number below n, if it is in range (R180: out of range gives BADVALUE). -/
def number? (n : Nat) (b : Byte) : Option (Fin n) :=
  if h : b.toNat < n then some ⟨b.toNat, h⟩ else none

/-- A group byte (R4, R19): 0 is absent; above 63 is out of range. -/
def group? (b : Byte) : Option (Option Group) :=
  if b = 0 then some none
  else match number? 64 b with
    | none => none
    | some g => some (some g)

/-- Two group bytes (R4, R19): each in range, and not both present and equal. -/
def groups? (a b : Byte) : Option (Option Group × Option Group) :=
  match group? a, group? b with
  | some ga, some gb => if ga.isSome && ga == gb then none else some (ga, gb)
  | _, _ => none

/-- IDs 0x000000 and 0xFFFFFF are invalid (R180). -/
def invalidId (id : BeltpackId) : Bool := id == 0 || id == 0xFFFFFF

/-- Step 1 of R3: the reference. -/
def State.resolve (s : State) : BeltpackRef → Except RefusalCode EntryNo
  | .compact b =>
    match number? 96 b with
    | none => .error .badValue
    | some e => if (s.entry e).isSome then .ok e else .error .noEntry
  | .extended id =>
    if invalidId id then .error .badValue
    else match s.findId id with
      | none => .error .noEntry
      | some e => .ok e

/-- A command that names a beltpack (R3): the reference, then the command's values, then the posted fault where the
command is one that a posting refuses, then the command's own checks and effect. -/
def withBeltpack {α : Type} (ref : BeltpackRef) (values : Option α) (refusedWhilePosted : Bool)
    (k : EntryNo → Entry → α → State → CommandReply) (s : State) : CommandReply :=
  match s.resolve ref with
  | .error r => .refuse r
  | .ok e =>
    match s.entry e with
    | none => .refuse .noEntry
    | some x =>
      match values with
      | none => .refuse .badValue
      | some v => if refusedWhilePosted && x.posted.isSome then .refuse .posted else k e x v s

/-- A command that names an antenna: a number above 23 is refused with BADVALUE. -/
def withAntenna (b : Byte) (k : AntennaNo → State → CommandReply) (s : State) : CommandReply :=
  match number? 24 b with
  | none => .refuse .badValue
  | some a => k a s

end Sys2Proof.Machine
end

