-- ==== Sys2Proof/Machine/Ports.lean ====
section
/-! DEFINITION. Trunk ports: posting orders (R155), beginning exchanges (R154), the internal responder (R160), letting go of an awaited order (R95), and clearing a port (R138, R145). -/

namespace Sys2Proof.Machine

/-! ### The Order FIFO and its waiting posters (R155) -/

/-- An order posted: pending at the end of the FIFO if there is room and no poster waits, else it waits. -/
def Port.post (p : Port) (o : Order) : Port :=
  if p.fifo.length < Config.fifoPlaces && p.waiting.isEmpty then { p with fifo := p.fifo ++ [o] }
  else { p with waiting := p.waiting ++ [o] }

/-- The oldest waiting poster takes a freed place at the end of the FIFO. -/
def Port.placeWaiting (p : Port) : Port :=
  match p.waiting with
  | [] => p
  | o :: ws =>
    if p.fifo.length < Config.fifoPlaces then { p with fifo := p.fifo ++ [o], waiting := ws } else p

/-! ### Exchanges (R154, R160) -/

/-- The reply that the internal responder prepares by the loopback mode (R40, R160). -/
def responderReply (mode : LoopbackMode) : Sent → Option PortReply
  | .probe =>
    match mode with
    | .off => none
    | _ => some (.status 0x01 0x00)
  | .order o =>
    let t := o.body.type.code
    match mode, o.body with
    | .off, _ | .silent, _ => none
    | .refuseReserves, .reserve _ _ => some (.refuse t o.id (byte o.slot))
    | _, _ => some (.ack t o.id (byte o.slot))

/-- An idle port of the running trunk begins its next exchange: a due probe, otherwise the oldest order, whose place
the oldest waiting poster takes (R154, R155). -/
def Port.begin (p : Port) (running : Bool) (mode : LoopbackMode) (orderTimeout : Nat) : Port :=
  match running, p.inFlight, p.probeDue, p.fifo with
  | true, none, true, _ =>
    { p with probeDue := false,
             inFlight := some ⟨.probe, Config.probeReplyTimeout, responderReply mode .probe⟩ }
  | true, none, false, o :: os =>
    { p with fifo := os,
             inFlight := some ⟨.order o, orderTimeout, responderReply mode (.order o)⟩ }.placeWaiting
  | _, _, _, _ => p

/-- The port makes its choice of the next exchange (R154), with the order timeout in force. -/
def State.beginExchange (s : State) (a : AntennaNo) : State :=
  s.mapPort a fun p => p.begin s.running (s.ant a).loopback s.orderTimeout

/-- An order is posted to a port; an idle port sends it at once (R155). -/
def State.postOrder (s : State) (a : AntennaNo) (o : Order) : State :=
  (s.mapPort a (·.post o)).beginExchange a

/-- The exchange in flight ends or is dropped. -/
def State.endExchange (s : State) (a : AntennaNo) : State :=
  s.mapPort a fun p => { p with inFlight := none }

/-! ### Orders that a context no longer awaits (R95) -/

/-- The order is left to its port if this context posted it. -/
def Order.disown (o : Order) (c : ContextNo) : Order :=
  if o.poster = .context c then { o with poster := .nobody } else o

/-- The frame of an exchange is left to its port. -/
def Exchange.disown (x : Exchange) (c : ContextNo) : Exchange :=
  match x.sent with
  | .probe => x
  | .order o => { x with sent := .order (o.disown c) }

/-- A context stops waiting on its order at this port: an order that still waits for a place is abandoned; one that is
pending or in flight stays and is nobody's. -/
def Port.leave (p : Port) (c : ContextNo) : Port :=
  { p with waiting := p.waiting.filter (fun o => o.poster != .context c),
           fifo := p.fifo.map (·.disown c),
           inFlight := p.inFlight.map (·.disown c) }

/-- A context stops waiting on its awaited order (R95, R105). -/
def State.stopAwaiting (s : State) (c : ContextNo) : State :=
  match s.ctx c with
  | none => s
  | some x =>
    match x.awaited with
    | none => s
    | some w => (s.mapPort w.port (·.leave c)).mapCtx c fun x => { x with awaited := none }

/-! ### Standing of an awaited order (R91) -/

/-- The standing of an order (12.5): 0 waiting for a place, 1 pending, 2 in flight. -/
inductive Standing where
  | waiting | pending | inFlight
deriving DecidableEq, Repr

/-- Where the order of a poster stands at a port. -/
def Port.standing (p : Port) (who : Poster) : Option Standing :=
  let sent := match p.inFlight with
    | some ⟨.order o, _, _⟩ => o.poster == who
    | _ => false
  if sent then some .inFlight
  else if p.fifo.any (·.poster == who) then some .pending
  else if p.waiting.any (·.poster == who) then some .waiting
  else none

/-- The standing of the order a context awaits; the Release it awaits was posted by its source slot (R103). -/
def State.standing (s : State) (c : ContextNo) (x : Context) (w : Awaited) : Option Standing :=
  match w.type, x.source with
  | .release, some (_, sl) => (s.port w.port).standing (.slot sl)
  | _, _ => (s.port w.port).standing (.context c)

/-! ### Clearing a port -/

/-- A closing sweep clears the port (R138): pending and waiting orders and the exchange in flight go; the probe timer
and a due probe stay. -/
def Port.clear (p : Port) : Port := { p with fifo := [], waiting := [], inFlight := none }

end Sys2Proof.Machine
end

