-- ==== Sys2Proof/Machine/Slots.lean ====
section
/-! DEFINITION. Slots and carriage lanes: counting groups (R45, R47, R51), the admission test and claim (R46, R47), releasing and freeing a slot (R49, R51), undoing a reservation (R52), and re-accounting a served beltpack's groups (R55, R56). -/

namespace Sys2Proof.Machine

/-! ### The lane table -/

/-- The lane table of an antenna. -/
abbrev Lanes := Vector (Option Lane) 4

/-- Whether a lane carries a group. -/
def laneCarries (g : Group) : Option Lane → Bool
  | none => false
  | some l => l.group == g

/-- The lane that carries a group, if any. -/
def Lanes.find (t : Lanes) (g : Group) : Option LaneNo :=
  (List.finRange 4).find? fun i => laneCarries g (t.get i)

/-- The lowest-numbered empty lane. -/
def Lanes.lowestEmpty (t : Lanes) : Option LaneNo :=
  (List.finRange 4).find? fun i => (t.get i).isNone

/-- The number of empty lanes. -/
def Lanes.emptyCount (t : Lanes) : Nat := (t.toList.filter Option.isNone).length

/-- A group is counted (R47): the lane that carries it goes up by one, otherwise the lowest empty lane takes it. -/
def Lanes.count (t : Lanes) (g : Group) : Lanes :=
  match t.find g with
  | some i => t.set i ((t.get i).map fun l => { l with users := l.users + 1 })
  | none =>
    match t.lowestEmpty with
    | some i => t.set i (some ⟨g, 1⟩)
    | none => t

/-- A lane's count lowered by one; a lane that reaches zero becomes empty. -/
def Lane.lower (l : Lane) : Option Lane :=
  if l.users ≤ 1 then none else some { l with users := l.users - 1 }

/-- A group is uncounted (R51). -/
def Lanes.uncount (t : Lanes) (g : Group) : Lanes :=
  match t.find g with
  | some i => t.set i ((t.get i).bind Lane.lower)
  | none => t

/-- The present groups of an entry, Group A first. -/
def presentGroups (a b : Option Group) : List Group := a.toList ++ b.toList

/-- The lane table of an antenna changed. -/
def State.mapLanes (s : State) (a : AntennaNo) (f : Lanes → Lanes) : State :=
  s.mapAnt a fun r => { r with lanes := f r.lanes }

/-! ### The admission test and the claim (R46, R47) -/

/-- The slot check fails: no Free slot, or the beltpack already holds a slot here. -/
def Antenna.slotCheckFails (r : Antenna) (e : EntryNo) : Bool := r.lowestFree.isNone || r.holds e

/-- The lane check fails: more groups need a new lane than lanes are empty. -/
def Antenna.laneCheckFails (r : Antenna) (groups : List Group) : Bool :=
  Lanes.emptyCount r.lanes < (groups.filter fun g => (Lanes.find r.lanes g).isNone).length

/-- The conditions that the admission test finds; none when it succeeds. Both checks are always made. -/
def Antenna.admissionTest (r : Antenna) (e : EntryNo) (groups : List Group) : ConditionSet :=
  (if r.slotCheckFails e then Condition.noSlot.bit else 0) |||
  (if r.laneCheckFails groups then Condition.noLane.bit else 0)

/-- The claim: the slot becomes Reserved and the groups are counted, Group A first. -/
def State.claim (s : State) (a : AntennaNo) (sl : SlotNo) (e : EntryNo) (groups : List Group) : State :=
  (s.setSlot a sl (.reserved e)).mapLanes a fun t => groups.foldl Lanes.count t

/-! ### Releasing and freeing -/

/-- An Occupied or Reserved slot goes to Releasing, keeping the entry it names, and its Release order is posted (R49). -/
def State.releaseSlot (s : State) (a : AntennaNo) (sl : SlotNo) : State :=
  match s.slot a sl with
  | .reserved e | .occupied e =>
    match s.entry e with
    | none => s
    | some x => (s.setSlot a sl (.releasing e)).postOrder a ⟨.release, x.id, sl, .slot sl⟩
  | .free | .releasing _ => s

/-- A slot is freed and its entry's groups are uncounted (R51). -/
def State.freeSlot (s : State) (a : AntennaNo) (sl : SlotNo) : State :=
  match (s.slot a sl).entry? with
  | none => s
  | some e =>
    let groups := match s.entry e with
      | none => []
      | some x => presentGroups x.groupA x.groupB
    (s.setSlot a sl .free).mapLanes a fun t => groups.foldl Lanes.uncount t

/-- A transaction's reservation is undone (R52, R106): a slot still Reserved goes to Releasing, one already freed is left
alone; the target is cleared. -/
def State.undoReservation (s : State) (c : ContextNo) : State :=
  match s.ctx c with
  | none => s
  | some x =>
    let s := match x.target, x.targetSlot with
      | some a, some sl => if s.slot a sl = Slot.reserved x.entry then s.releaseSlot a sl else s
      | _, _ => s
    s.mapCtx c fun x => { x with target := none, targetSlot := none }

/-! ### Changing the groups of a served beltpack (R55, R56) -/

/-- The groups of the first list that are not in the second. -/
def groupsLeft (xs ys : List Group) : List Group := xs.filter fun g => !ys.contains g

/-- The test of R55: lanes that will be empty once the dropped groups are uncounted, against added groups that no lane
carries. -/
def Lanes.canRegroup (t : Lanes) (old new : List Group) : Bool :=
  let freed := (groupsLeft old new).foldl Lanes.uncount t
  ((groupsLeft new old).filter fun g => (t.find g).isNone).length ≤ freed.emptyCount

/-- The re-accounting of R56: dropped groups first, then added groups in the order of the new groups. -/
def Lanes.regroup (t : Lanes) (old new : List Group) : Lanes :=
  (groupsLeft new old).foldl Lanes.count ((groupsLeft old new).foldl Lanes.uncount t)

end Sys2Proof.Machine
end

