-- ==== Sys2Proof/Machine/Survey.lean ====
section
/-! DEFINITION. The Survey Unit: smoothing (R60), the candidate list (R62, R63), the exchange of serving antennas (R61, R64), and eligible targets (R65). -/

namespace Sys2Proof.Machine

/-! ### Scores (R60) -/

/-- The step of a score with difference d and shift k from 1 to 7: d over 2^k truncated toward zero, but never zero
while d is not. -/
def smoothingStep (d : Int) (k : Nat) : Int :=
  let t := d.tdiv (2 ^ k)
  if t = 0 then d.sign else t

/-- A later sample of a score (R60): k = 0 takes the sample, k from 8 freezes the score. -/
def smooth (k : Nat) (score sample : Byte) : Byte :=
  if k = 0 then sample
  else if 8 ≤ k then score
  else BitVec.ofInt 8 (score.toNat + smoothingStep ((sample.toNat : Int) - score.toNat) k)

/-! ### The candidate list (R62) -/

/-- Candidate x stands before candidate y: higher score, or equal score and lower antenna. -/
def Candidate.before (x y : Candidate) : Bool :=
  y.score < x.score || (x.score == y.score && x.antenna < y.antenna)

/-- A candidate placed by its score. -/
def placeCandidate (x : Candidate) : List Candidate → List Candidate
  | [] => [x]
  | y :: ys => if x.before y then x :: y :: ys else y :: placeCandidate x ys

/-- The candidate of an antenna. -/
def findCandidate (a : AntennaNo) (l : List Candidate) : Option Candidate := l.find? (·.antenna == a)

/-- The list without an antenna's candidate. -/
def dropCandidate (a : AntennaNo) (l : List Candidate) : List Candidate := l.filter (·.antenna != a)

/-- The lead made absent with count 0 (R57). -/
def Survey.resetLead (v : Survey) : Survey := { v with lead := none, leadCount := 0 }

/-- A candidate leaves the list; if it was the lead antenna the lead is reset (R62, R63). -/
def Survey.remove (v : Survey) (a : AntennaNo) : Survey :=
  let v' := { v with candidates := dropCandidate a v.candidates }
  if v.lead = some a then v'.resetLead else v'

/-- A new candidate (R62): placed if there is room; in a full list it takes the place of the last one if its score is
greater, or whatever the scores when it is forced (5.7). -/
def Survey.add (v : Survey) (x : Candidate) (forced : Bool) : Survey :=
  if v.candidates.length < Config.candidatePlaces then
    { v with candidates := placeCandidate x v.candidates }
  else
    match v.candidates.getLast? with
    | none => v
    | some last =>
      if forced || last.score < x.score then
        let v := v.remove last.antenna
        { v with candidates := placeCandidate x v.candidates }
      else v

/-- A candidate that the list holds takes a new score and a fresh lifetime and is placed again. -/
def Survey.rescore (v : Survey) (x : Candidate) : Survey :=
  { v with candidates := placeCandidate x (dropCandidate x.antenna v.candidates) }

/-- A candidate update by a Sighting (R62). -/
def Survey.update (v : Survey) (a : AntennaNo) (sample : Byte) (k lifetime : Nat) : Survey :=
  match findCandidate a v.candidates with
  | some x => v.rescore ⟨a, smooth k x.score sample, lifetime⟩
  | none => v.add ⟨a, sample, lifetime⟩ false

/-- A Seek sets the candidate's score to its quality, without smoothing and by the forced rule (R74, R75). -/
def Survey.force (v : Survey) (a : AntennaNo) (quality : Byte) (lifetime : Nat) : Survey :=
  match findCandidate a v.candidates with
  | some _ => v.rescore ⟨a, quality, lifetime⟩
  | none => v.add ⟨a, quality, lifetime⟩ true

/-- A sample of the serving score (R61): the first one sets it. -/
def Survey.sampleServing (v : Survey) (sample : Byte) (k : Nat) : Survey :=
  { v with servingScore := some (match v.servingScore with
      | none => sample
      | some x => smooth k x sample) }

/-- The Arrival's exchange (R61, R64 step 1): the target's candidate gives the serving score and leaves the list, the
former serving score of a Move is kept, the lead is reset. -/
def Survey.arrive (v : Survey) (target : AntennaNo) (source : Option AntennaNo) : Survey :=
  { servingScore := (findCandidate target v.candidates).map (·.score)
    candidates := dropCandidate target v.candidates
    lead := none
    leadCount := 0
    former := match source, v.servingScore with
      | some a, some x => some (a, x)
      | _, _ => none }

/-- The completion's exchange (R64 step 2): the former serving antenna joins the list, unless it is there already. -/
def Survey.completeMove (v : Survey) (lifetime : Nat) : Survey :=
  match v.former with
  | none => v
  | some (a, x) =>
    let v := { v with former := none }
    match findCandidate a v.candidates with
    | some _ => v
    | none => v.add ⟨a, x, lifetime⟩ false

/-! ### Eligible targets (R65) -/

/-- Whether a candidate is an eligible target under an exclusion set. -/
def State.eligible (s : State) (exclusion : AntennaSet) (x : Candidate) : Bool :=
  (s.ant x.antenna).open && s.entryFloor ≤ x.score.toNat && !inSet x.antenna exclusion

/-- The best eligible target of an entry: the first eligible candidate in list order. -/
def State.bestCandidate (s : State) (e : EntryNo) (exclusion : AntennaSet) : Option Candidate :=
  match s.entry e with
  | none => none
  | some x => x.survey.candidates.find? (s.eligible exclusion)

/-- The antenna of the best eligible target. -/
def State.bestTarget (s : State) (e : EntryNo) (exclusion : AntennaSet) : Option AntennaNo :=
  (s.bestCandidate e exclusion).map (·.antenna)

end Sys2Proof.Machine
end

