-- ==== Sys2Proof/Machine/Requests.lean ====
section
/-! DEFINITION. The Request Queue: the key (R80), raising, merging and a full queue (R81 to R84), re-entry (R85) and removal (R87). -/

namespace Sys2Proof.Machine

/-! ### The key (R80) -/

/-- 0 for Evacuation, which alone is urgent, 1 for every other cause (R79). -/
def Cause.urgency : Cause → Nat
  | .evacuation => 0
  | .attach | .directed | .drain | .evict | .fade | .survey => 1

/-- Request x stands before request y: urgency, class, cause rank, entry order, in that order. -/
def Request.before (x y : Request) : Bool :=
  if x.cause.urgency ≠ y.cause.urgency then x.cause.urgency < y.cause.urgency
  else if x.cls ≠ y.cls then x.cls < y.cls
  else if x.cause.rank ≠ y.cause.rank then x.cause.rank < y.cause.rank
  else x.order < y.order

/-- A request placed by its key in a queue that is in key order. -/
def placeRequest (r : Request) : List Request → List Request
  | [] => [r]
  | q :: qs => if r.before q then r :: q :: qs else q :: placeRequest r qs

/-- The requests of the other entries. -/
def dropRequest (e : EntryNo) (q : List Request) : List Request := q.filter (·.entry != e)

/-- The entry's queued request, if any, leaves the queue; its not-before timer goes with it (R87). -/
def State.removeRequest (s : State) (e : EntryNo) : State := { s with queue := dropRequest e s.queue }

/-- A request placed in the queue by its key; the next entry order moves on. -/
def State.enqueue (s : State) (r : Request) : State :=
  { s with queue := placeRequest r s.queue, nextOrder := s.nextOrder + 1 }

/-! ### Raising (R79, R81) -/

/-- What a raise carries besides the beltpack. -/
structure Raise where
  cause : Cause
  explicit : Option AntennaNo
  exclusion : AntennaSet
deriving DecidableEq, Repr

/-- A fresh request of the raise, with the class the entry holds now and the next entry order. -/
def Raise.request (w : Raise) (e : EntryNo) (cls : ClassNo) (order : Nat) : Request :=
  { entry := e, cause := w.cause, cls := cls, explicit := w.explicit, exclusion := w.exclusion,
    retry := 0, displaced := false, notBefore := none, order := order }

/-- A raise merged into a queued request (R82). -/
def Request.merge (r : Request) (w : Raise) : Request :=
  let r := { r with explicit := w.explicit.or r.explicit, exclusion := r.exclusion ||| w.exclusion }
  if w.cause.rank < r.cause.rank then
    { r with cause := w.cause, notBefore := none, retry := 0, displaced := false }
  else r

/-- The merged request is placed again by its key (R82). -/
def State.mergeRequest (s : State) (r : Request) (w : Raise) : State :=
  { s with queue := placeRequest (r.merge w) (dropRequest r.entry s.queue) }

/-- A full queue (R83): the one request that would stand last among the seventeen is lost. -/
def State.raiseIntoFull (s : State) (r : Request) : State :=
  match s.queue.getLast? with
  | none => s
  | some last => if r.before last then (s.removeRequest last.entry).enqueue r else s

/-- A raise by the part (R81, R83). -/
def State.raiseRequest (s : State) (e : EntryNo) (w : Raise) : State :=
  match s.entry e with
  | none => s
  | some x =>
    if x.context.isSome then s
    else match s.requestOf e with
      | some r => s.mergeRequest r w
      | none =>
        let r := w.request e x.cls s.nextOrder
        if s.queue.length < Config.queuePlaces then s.enqueue r else s.raiseIntoFull r

/-- Whether a raise from the host would be refused with QUEUEFULL (R84). -/
def State.hostRaiseFull (s : State) (e : EntryNo) : Bool :=
  !s.queued e && Config.queuePlaces ≤ s.queue.length

/-! ### Re-entry (R85) -/

/-- A context hands its request back, with this retry count and mark: next entry order, held for the Retry delay. The
caller has seen that the queue has room. -/
def State.requeue (s : State) (x : Context) (retry : Nat) (displaced : Bool) : State :=
  s.enqueue { entry := x.entry, cause := x.cause, cls := x.cls, explicit := x.explicit, exclusion := x.exclusion,
              retry := retry, displaced := displaced, notBefore := some s.retryDelay, order := s.nextOrder }

/-- Whether the queue has room for a re-entry. -/
def State.queueHasRoom (s : State) : Bool := s.queue.length < Config.queuePlaces

/-- A request is fresh: retry count 0 and no displaced-once mark (R78). -/
def Request.fresh (r : Request) : Bool := r.retry == 0 && !r.displaced

/-- The first request in key order that is not held by a not-before time (R88). -/
def State.firstReady (s : State) : Option Request := s.queue.find? (·.notBefore.isNone)

/-- The raise of an Evacuation for a Lost beltpack with an eligible target (R71, R135). -/
def State.raiseEvacuation (s : State) (e : EntryNo) : State :=
  match s.bestTarget e 0 with
  | none => s
  | some _ => s.raiseRequest e ⟨.evacuation, none, 0⟩

end Sys2Proof.Machine
end

