-- ==== Sys2Proof/Machine/Roster.lean ====
section
/-! DEFINITION. The Roster's transitions: off air (R15), Lost (R11, R12), the Arrival (R8), the state at the end of a transaction (R9), and the commands that take a beltpack off air (R16). -/

namespace Sys2Proof.Machine

/-- A timer started for a time; a time of 0 leaves it stopped (R14). -/
def startTimer (ms : Nat) : Option Nat := if ms = 0 then none else some ms

/-- An entry enters Unattached (R15). -/
def Entry.offAir (x : Entry) : Entry :=
  { x with state := .unattached, serving := none, context := none, settleTimer := none, lostTimer := none,
           windowExpired := false, survey := {} }

/-- A notice about an entry, which carries the entry and its ID. -/
def State.notify (s : State) (e : EntryNo) (n : BeltpackId → Notice) : State :=
  match s.entry e with
  | none => s
  | some x => s.queueNotice (n x.id)

/-- An entry becomes Unattached with a Beltpack Unattached notice (R13, R16, R17). -/
def State.detachWith (s : State) (e : EntryNo) (r : UnattachedReason) : State :=
  (s.mapEntry e Entry.offAir).notify e fun id => .unattached e id r

/-- An entry becomes Lost (R11, R12): the serving reference and score go, the settle timer stops, the Lost timer starts
for the Lost window in force, the lead is reset; Beltpack Lost names the antenna that was lost. -/
def State.loseServing (s : State) (e : EntryNo) (a : AntennaNo) : State :=
  (s.mapEntry e fun x =>
    { x with state := .lost, serving := none, settleTimer := none, lostTimer := some s.lostWindow,
             survey := { x.survey with servingScore := none, lead := none, leadCount := 0 } }).notify e
    fun id => .lost e id (some a)

/-- The entry side of an Arrival (R8, R48, R61, R64): Served at the target, no longer Lost, scores exchanged. -/
def Entry.arrive (x : Entry) (a : AntennaNo) (sl : SlotNo) (source : Option AntennaNo) : Entry :=
  { x with state := .served, serving := some (a, sl), lostTimer := none, windowExpired := false,
           survey := x.survey.arrive a source }

/-- The state an entry takes when its transaction ends without arrival (R9), before any notice. -/
def Entry.endTransaction (x : Entry) (kind : Kind) (lostWindow : Nat) : Entry :=
  match x.state, kind with
  | .moving, _ => { x with context := none, state := .served }
  | .attaching, .attach => x.offAir
  | .attaching, _ => { x with context := none, state := .lost, lostTimer := some lostWindow }
  | .lost, _ => if x.windowExpired then x.offAir else { x with context := none }
  | .served, _ | .unattached, _ => { x with context := none }

/-- The notice the Roster queues for the end of a transaction (R9): Lost for a converted one, Unattached with reason
window where the window has expired. -/
def State.notifyEnd (s : State) (e : EntryNo) (before : Entry) (kind : Kind) : State :=
  match before.state, kind, before.windowExpired with
  | .attaching, .move, _ | .attaching, .summon, _ => s.queueNotice (.lost e before.id none)
  | .lost, _, true => s.queueNotice (.unattached e before.id .window)
  | _, _, _ => s

/-- A beltpack with no transaction goes off air and is barred (R16): its slot is released, its request removed; the
notice is queued where the state changes. -/
def State.detach (s : State) (e : EntryNo) (x : Entry) : State :=
  let s := match x.state, x.serving with
    | .served, some (a, sl) => s.releaseSlot a sl
    | _, _ => s
  let s := (s.removeRequest e).mapEntry e fun x => { x with admission := .barred }
  if x.state = .unattached then s else s.detachWith e .detach

end Sys2Proof.Machine
end

