-- ==== Sys2Proof/Machine/Handoff.lean ====
section
/-! DEFINITION. The Handoff Engine: target choice and admission (R94 to R96), the disposal of conditions with its dispositions (R105, R118 to R129), the end and the completion of a transaction (R104, R107), the Arrival (R100) and the dispatch of requests (R88, R92). -/

namespace Sys2Proof.Machine

/-! ### Posting a context's order (R95) -/

/-- A context posts an order to a port, and it becomes its awaited order. -/
def State.postAwaited (s : State) (c : ContextNo) (a : AntennaNo) (o : Order) : State :=
  (s.mapCtx c fun x => { x with awaited := some ⟨o.body.type, a⟩ }).postOrder a o

/-- A context posts a Summon for its target slot (R98, R102, R128). -/
def State.postSummon (s : State) (c : ContextNo) : State :=
  match s.ctx c with
  | none => s
  | some x =>
    match x.target, x.targetSlot, s.entry x.entry with
    | some a, some sl, some y => s.postAwaited c a ⟨.summon, y.id, sl, .context c⟩
    | _, _, _ => s

/-! ### Choosing a target and admission (R94 to R96) -/

/-- The target of a first choice: the explicit target unless it is excluded, else the best eligible one. -/
def State.chooseTarget (s : State) (x : Context) (first : Bool) : Option AntennaNo :=
  let best := s.bestTarget x.entry (x.exclusion ||| x.tried)
  match first, x.explicit with
  | true, some a => if inSet a x.exclusion then best else some a
  | _, _ => best

/-- A target that is chosen may be admitted when it is open; an explicit one that is not gives NOTARGET. -/
def State.seekAdmission (s : State) (c : ContextNo) (x : Context) (a : AntennaNo) : State × ConditionSet :=
  match s.entry x.entry with
  | none => (s, Condition.noTarget.bit)
  | some y =>
    if !(s.ant a).open then (s, Condition.noTarget.bit)
    else
      let groups := presentGroups y.groupA y.groupB
      match (s.ant a).admissionTest x.entry groups, (s.ant a).lowestFree with
      | 0#8, some sl =>
        let s := (s.claim a sl x.entry groups).mapCtx c fun x => { x with targetSlot := some sl }
        (s.postAwaited c a ⟨.reserve y.groupA y.groupB, y.id, sl, .context c⟩, 0)
      | found, _ => (s, found)

/-- The choice of a target and the admission test there (R94, R96): a Reserve posted and no condition, or the conditions
found. -/
def State.tryTarget (s : State) (c : ContextNo) (first : Bool) : State × ConditionSet :=
  match s.ctx c with
  | none => (s, 0)
  | some x =>
    match s.chooseTarget x first with
    | none => (s.mapCtx c fun x => { x with target := none }, Condition.noTarget.bit)
    | some a => (s.mapCtx c fun x => { x with target := some a }).seekAdmission c x a

/-! ### The end of a transaction without arrival (R107) -/

/-- The context is freed, the Roster sets the entry's state and queues its notice (R9). The order the context awaited has
been left and its reservation undone. -/
def State.endTransaction (s : State) (c : ContextNo) : State :=
  match s.ctx c with
  | none => s
  | some x =>
    let s' := s.putCtx c none
    match s.entry x.entry with
    | none => s'
    | some y =>
      (s'.mapEntry x.entry fun y => y.endTransaction x.kind s.lostWindow).notifyEnd x.entry y x.kind

/-- Before a disposition acts: the arrival timer stops, the awaited order is left, the reservation is undone (R105,
R106). -/
def State.giveUpAttempt (s : State) (c : ContextNo) : State :=
  ((s.mapCtx c fun x => { x with arrivalTimer := none }).stopAwaiting c).undoReservation c

/-! ### Dispositions (R119 to R128) -/

/-- What a disposal decides. -/
inductive Decision where
  | post | stop | next | reEnter | convert
  | displace (victim : EntryNo)
deriving DecidableEq, Repr

/-- Whether the entry in an Occupied slot is a victim for a requester's class (R125). -/
def Entry.victimFor (x : Entry) (cls : ClassNo) : Bool :=
  x.state == .served && x.context.isNone && x.posted.isNone && !x.pinned && cls < x.cls

/-- The victim in a slot, with its class. -/
def State.victimIn (s : State) (a : AntennaNo) (cls : ClassNo) (sl : SlotNo) : Option (EntryNo × ClassNo) :=
  match s.slot a sl with
  | .occupied e =>
    match s.entry e with
    | some x => if x.victimFor cls then some (e, x.cls) else none
    | none => none
  | _ => none

/-- The victim at a target: greatest class, then highest-numbered slot (R125). -/
def State.victim (s : State) (a : AntennaNo) (cls : ClassNo) : Option EntryNo :=
  let pick (best : Option (EntryNo × ClassNo)) (sl : SlotNo) : Option (EntryNo × ClassNo) :=
    match s.victimIn a cls sl, best with
    | none, b => b
    | some v, none => some v
    | some v, some b => if b.2 ≤ v.2 then some v else some b
  ((List.finRange 8).foldl pick none).map (·.1)

/-- NOSLOT under Displace (R125, R126): displace if there is no mark, the cause is not Evict and the target has a victim;
then a full queue ends it as Stay (R85). Otherwise next. -/
def State.decideDisplace (s : State) (x : Context) : Decision :=
  match if x.displaced || x.cause == .evict then none else x.target.bind (s.victim · x.cls) with
  | none => .next
  | some v => if s.queueHasRoom then .displace v else .stop

/-- Re-entry (R127): within the retry limit and with room in the queue, else the end. -/
def State.decideReEnter (s : State) (x : Context) : Decision :=
  if x.retry + 1 ≤ s.retryLimit && s.queueHasRoom then .reEnter else .stop

/-- The way a disposal goes for its reported condition (R119, R122). -/
def State.decideDisposal (s : State) (x : Context) (k : Condition) : Decision :=
  if !k.forced && k.within s.enableSet then .post
  else match k, s.fallbackMode with
    | .srcLost, _ => .convert
    | _, .stay => .stop
    | .noTarget, .next | .noTarget, .displace => .stop
    | _, .retry => s.decideReEnter x
    | .noSlot, .displace => s.decideDisplace x
    | _, .next | _, .displace => .next

/-- The disposition that a Condition Report names (R129). -/
def Decision.disposition : Decision → Disposition
  | .next => .next
  | .reEnter | .displace _ => .reEnter
  | .convert => .convert
  | .post | .stop => .ended

/-- The Condition Report of a forced reported condition (R129). -/
def State.reportForced (s : State) (x : Context) (k : Condition) (d : Decision) : State :=
  match s.entry x.entry with
  | none => s
  | some y =>
    if k.forced && s.forcedNotices then
      s.queueNotice (.conditionReport x.entry y.id k y.current x.target d.disposition)
    else s

/-- The posting (R120, R121): the attempt is given up, the record written, Handoff Held queued, the transaction ended. -/
def State.postFault (s : State) (c : ContextNo) (x : Context) (k : Condition) : State :=
  let s := s.giveUpAttempt c
  match s.entry x.entry with
  | none => s.endTransaction c
  | some y =>
    ((s.mapEntry x.entry fun y => { y with posted := some ⟨k, y.current, x.target, x.cause⟩ }).queueNotice
      (.handoffHeld x.entry y.id k y.current x.target x.cause)).endTransaction c

/-- The next disposition up to its fresh choice (R124): the failed target joins the tried set, the reservation is undone,
the phase becomes Reserve. -/
def State.moveOn (s : State) (c : ContextNo) (x : Context) : State :=
  (s.giveUpAttempt c).mapCtx c fun y =>
    { y with tried := y.tried ||| optionBit x.target, phase := .reserve }

/-- The displace disposition (R126): the requester re-enters with its mark, then the victim's Evict request is raised. -/
def State.displace (s : State) (c : ContextNo) (x : Context) (v : EntryNo) : State :=
  (((s.giveUpAttempt c).requeue x x.retry true).endTransaction c).raiseRequest v
    ⟨.evict, none, optionBit x.target⟩

/-- The re-enter disposition (R127), once it is known that the request re-enters. -/
def State.reEnter (s : State) (c : ContextNo) (x : Context) : State :=
  ((s.giveUpAttempt c).requeue x (x.retry + 1) x.displaced).endTransaction c

/-- The convert disposition (R128): a sourceless Summon toward the same target. The order awaited at the target and the
arrival timer go on; in the Cue phase a Summon is posted. -/
def State.convert (s : State) (c : ContextNo) (x : Context) : State :=
  let s := (s.mapCtx c fun y => { y with kind := .summon, source := none }).mapEntry x.entry fun y =>
    { y with state := .attaching, serving := none, survey := { y.survey with servingScore := none } }
  if x.phase = .cue then ((s.stopAwaiting c).mapCtx c fun y => { y with phase := .summon }).postSummon c
  else s

/-- The disposal of the conditions detected at one event (R105, R118, R119), with the chain of fresh choices that the
next disposition makes; each adds a target to the tried set, so the chain is shorter than its bound (log entry 16). -/
def State.disposeChain : Nat → ContextNo → ConditionSet → State → State
  | 0, _, _, s => s
  | n + 1, c, found, s =>
    match s.ctx c, reportedCondition found with
    | some x, some k =>
      let s := s.recordConditions x.entry found
      let d := s.decideDisposal x k
      let s := s.reportForced x k d
      match d with
      | .post => s.postFault c x k
      | .stop => (s.giveUpAttempt c).endTransaction c
      | .reEnter => s.reEnter c x
      | .displace v => s.displace c x v
      | .convert => s.convert c x
      | .next =>
        let r := (s.moveOn c x).tryTarget c false
        if r.2 = 0 then r.1 else disposeChain n c r.2 r.1
    | _, _ => s

/-- The most disposals in one chain: 24 targets, an explicit one, and the last NOTARGET. -/
def disposalBound : Nat := 26

/-- A disposal at a context (R118). -/
def State.dispose (s : State) (c : ContextNo) (found : ConditionSet) : State :=
  State.disposeChain disposalBound c found s

/-! ### Completion (R104) -/

/-- The entry side of completion (R104 step 2): a Served beltpack settles; a Lost one whose window has expired goes off
air. -/
def Entry.complete (x : Entry) (settleTime : Nat) : Entry :=
  match x.state with
  | .served => { x with context := none, settleTimer := startTimer settleTime }
  | .lost => if x.windowExpired then x.offAir else { x with context := none }
  | .unattached | .attaching | .moving => { x with context := none }

/-- A transaction completes (R104), in the order of its steps. -/
def State.complete (s : State) (c : ContextNo) : State :=
  match s.ctx c with
  | none => s
  | some x =>
    match s.entry x.entry with
    | none => s.putCtx c none
    | some y =>
      let s := s.mapSurvey x.entry (·.completeMove s.candidateLifetime)
      let s := s.mapEntry x.entry (·.complete s.settleTime)
      let s := if y.state = .lost && y.windowExpired then s.queueNotice (.unattached x.entry y.id .window) else s
      let s := s.queueNotice
        (.handoffDone x.entry y.id x.cause x.kind (x.source.map (·.1)) x.target x.targetSlot)
      s.putCtx c none

/-! ### The Arrival (R100) -/

/-- The Beltpack Attached notice of an Arrival (R8): for a beltpack that was Attaching or Lost. -/
def State.notifyAttached (s : State) (e : EntryNo) (y : Entry) (a : AntennaNo) (sl : SlotNo) : State :=
  match y.state with
  | .attaching | .lost => s.queueNotice (.attached e y.id a sl)
  | .unattached | .served | .moving => s

/-- The source of a Move after its Arrival: the slot goes to Releasing, and its Release is the awaited order (R49,
R103). -/
def State.beginRelease (s : State) (c : ContextNo) (a : AntennaNo) (sl : SlotNo) : State :=
  (s.mapCtx c fun x => { x with phase := .release, awaited := some ⟨.release, a⟩ }).releaseSlot a sl

/-- The Arrival that a transaction waits for is taken in one step (R100). -/
def State.takeTargetArrival (s : State) (c : ContextNo) (x : Context) (a : AntennaNo) (sl : SlotNo) : State :=
  let s := (s.mapCtx c fun y => { y with arrivalTimer := none }).stopAwaiting c
  match s.entry x.entry with
  | none => s
  | some y =>
    let s := (s.setSlot a sl (.occupied x.entry)).mapEntry x.entry
      (·.arrive a sl (x.source.map (·.1)))
    let s := s.notifyAttached x.entry y a sl
    match x.kind, x.source with
    | .move, some (b, bsl) => s.beginRelease c b bsl
    | _, _ => s.complete c

/-! ### Dispatch (R88, R92, R93) -/

/-- The kind of a transaction, from the state at dispatch (R93). -/
def RosterState.kindAtDispatch : RosterState → Kind
  | .served => .move
  | .lost => .summon
  | .unattached | .attaching | .moving => .attach

/-- The entry side of a dispatch (R7, R22): the context recorded, the new state, and for a fresh request the current set
emptied. -/
def Entry.dispatch (x : Entry) (c : ContextNo) (fresh : Bool) : Entry :=
  let current := if fresh then 0 else x.current
  match x.state with
  | .unattached => { x with context := some c, current := current, state := .attaching }
  | .served => { x with context := some c, current := current, state := .moving, settleTimer := none }
  | .attaching | .moving | .lost => { x with context := some c, current := current }

/-- The busy context that takes a request (R92). -/
def Request.context (r : Request) (y : Entry) : Context :=
  let kind := y.state.kindAtDispatch
  { entry := r.entry, cause := r.cause, cls := r.cls, kind := kind,
    source := if kind = .move then y.serving else none,
    explicit := r.explicit, exclusion := r.exclusion, retry := r.retry, displaced := r.displaced }

/-- A request is handed to a context, which chooses a target, asks for admission, and disposes of what it finds (R92). -/
def State.handOver (s : State) (c : ContextNo) (r : Request) : State :=
  let s := s.removeRequest r.entry
  match s.entry r.entry with
  | none => s
  | some y =>
    let s := (s.mapEntry r.entry (·.dispatch c r.fresh)).putCtx c (some (r.context y))
    let t := s.tryTarget c true
    if t.2 = 0 then t.1 else t.1.dispose c t.2

/-- The first request that may go is handed to the lowest free context, if both are there (R88). -/
def State.dispatchOne (s : State) : Option State :=
  match s.lowestContext, s.firstReady with
  | some c, some r => some (s.handOver c r)
  | _, _ => none

/-- Dispatch again and again until no context is free or no request may go (R88). -/
def State.dispatchLoop : Nat → State → State
  | 0, s => s
  | n + 1, s =>
    match s.dispatchOne with
    | none => s
    | some s => dispatchLoop n s

/-- The dispatch made at an event that can make it possible (R88, R139). Each request goes at most once, and each
displacement may add one Evict request, so the bound is never reached (log entry 16). -/
def State.settle (s : State) : State := State.dispatchLoop (2 * s.queue.length + 2) s

end Sys2Proof.Machine
end

