-- ==== Sys2Proof/Machine/Sweep.lean ====
section
/-! DEFINITION. The closing sweep (R134 to R139), the completion of a drain (R141), the freeing of a Releasing slot with its consequences (R50), and changes of an antenna record that may end carrying (R26). -/

namespace Sys2Proof.Machine

/-! ### Draining (R141) -/

/-- A Draining antenna whose slots are all Free goes Out of service with its notices; else nothing. -/
def State.drainTest (s : State) (a : AntennaNo) (how : EmptiedBy) : State :=
  if (s.ant a).admin == .draining && (s.ant a).allFree then
    (s.changeAntenna a fun r => { r with admin := .outOfService }).queueNotice (.drainComplete a how)
  else s

/-! ### The slots of a sweep (R135 to R137) -/

/-- ORDERLATE of the very timeout that set the fault marker joins the sweep's condition at its context (R32). -/
def lateSet (late : Option ContextNo) (c : ContextNo) : ConditionSet :=
  if late = some c then Condition.orderLate.bit else 0

/-- The entry of an Occupied slot that a sweep has freed (R135, R136). -/
def State.sweepOccupied (s : State) (a : AntennaNo) (late : Option ContextNo) (e : EntryNo) : State :=
  match s.entry e with
  | none => s
  | some x =>
    match x.context with
    | none => (s.loseServing e a).raiseEvacuation e
    | some c =>
      match s.ctx c with
      | none => s
      | some t =>
        if t.phase = .release then s.loseServing e a
        else s.dispose c (Condition.srcLost.bit ||| lateSet late c)

/-- The entry of a Reserved slot that a sweep has freed (R137). -/
def State.sweepReserved (s : State) (late : Option ContextNo) (e : EntryNo) : State :=
  match (s.entry e).bind (·.context) with
  | none => s
  | some c => s.dispose c (Condition.tgtLost.bit ||| lateSet late c)

/-- The transaction in its Release phase whose source slot this is, if any (R50, R137). -/
def State.releasedBy (s : State) (a : AntennaNo) (sl : SlotNo) (e : EntryNo) : Option ContextNo :=
  match (s.entry e).bind (·.context) with
  | none => none
  | some c =>
    match s.ctx c with
    | none => none
    | some x => if x.phase = .release && x.source = some (a, sl) then some c else none

/-- The entry of a Releasing slot that has been freed: a transaction in its Release phase completes (R50, R137). -/
def State.afterRelease (s : State) (a : AntennaNo) (sl : SlotNo) (e : EntryNo) : State :=
  match s.releasedBy a sl e with
  | none => s
  | some c => s.complete c

/-- One slot of a sweep with all its consequences (R134 step 3). -/
def State.sweepSlot (a : AntennaNo) (late : Option ContextNo) (s : State) (sl : SlotNo) : State :=
  match s.slot a sl with
  | .free => s
  | .occupied e => (s.setSlot a sl .free).sweepOccupied a late e
  | .reserved e => (s.setSlot a sl .free).sweepReserved late e
  | .releasing e => (s.setSlot a sl .free).afterRelease a sl e

/-- The closing sweep after the change that caused it (R134): the port, the slots in order, the lanes; then the drain it
completes (R141), and the port's next exchange (R154). -/
def State.closingSweep (s : State) (a : AntennaNo) (late : Option ContextNo) : State :=
  let s := s.mapPort a Port.clear
  let s := (List.finRange 8).foldl (State.sweepSlot a late) s
  let s := s.mapLanes a fun _ => Vector.replicate 4 none
  (s.drainTest a .closing).beginExchange a

/-- A change of an antenna record in one event; if it ends carrying, the closing sweep follows (R26, R134). -/
def State.changeAndSweep (s : State) (a : AntennaNo) (late : Option ContextNo) (f : Antenna → Antenna) : State :=
  let was := (s.ant a).carrying
  let s := s.changeAntenna a f
  if was && !(s.ant a).carrying then s.closingSweep a late else s

/-! ### A Releasing slot is freed at its port (R50) -/

/-- The Release of a slot is answered or times out: the slot is freed, the transaction it ends completes, and the drain
test is made (R50, R51, R141). -/
def State.endRelease (s : State) (a : AntennaNo) (sl : SlotNo) : State :=
  match s.slot a sl with
  | .releasing e => (((s.freeSlot a sl).afterRelease a sl e).drainTest a .moves)
  | .free | .reserved _ | .occupied _ => s

end Sys2Proof.Machine
end

