-- ==== Sys2Proof/Machine/Reports.lean ====
section
/-! DEFINITION. Reports taken at their blocks: Sightings (R58, R59, R66 to R71), Seeks (R72 to R77), Arrivals (R100, R101, R158) and Sign-offs (R17, R109). -/

namespace Sys2Proof.Machine

/-! ### What follows a Sighting (R66 to R71) -/

/-- Whether the serving antenna of an entry is Draining. -/
def State.servedAtDraining (s : State) (x : Entry) : Bool :=
  match x.serving with
  | none => false
  | some (a, _) => (s.ant a).admin == .draining

/-- The Drain request (R70). -/
def State.considerDrain (s : State) (e : EntryNo) : State :=
  match s.entry e with
  | none => s
  | some x =>
    if s.servedAtDraining x && x.context.isNone && !s.queued e && (s.bestTarget e 0).isSome then
      s.raiseRequest e ⟨.drain, none, optionBit (x.serving.map (·.1))⟩
    else s

/-- Whether a queued request leaves room for a Fade: there is none, or its cause is Survey (R69). -/
def State.fadeMayJoin (s : State) (e : EntryNo) : Bool :=
  match s.requestOf e with
  | none => true
  | some r => r.cause == .survey

/-- Whether a score is below the Fade floor; an unset score is not. -/
def State.faded (s : State) (x : Entry) : Bool :=
  match x.survey.servingScore with
  | none => false
  | some v => v.toNat < s.fadeFloor

/-- The Fade request (R69), after a Sighting from the serving antenna. -/
def State.considerFade (s : State) (e : EntryNo) : State :=
  match s.entry e with
  | none => s
  | some x =>
    if s.faded x && (s.bestTarget e 0).isSome && !x.pinned && x.posted.isNone && x.context.isNone
        && s.fadeMayJoin e then
      s.raiseRequest e ⟨.fade, none, 0⟩
    else s

/-- Whether survey evaluation is suppressed (R67). -/
def State.suppressed (s : State) (e : EntryNo) (x : Entry) : Bool :=
  x.pinned || x.posted.isSome || x.context.isSome || s.queued e || x.settleTimer.isSome
    || s.servedAtDraining x || x.survey.servingScore.isNone

/-- The lead after one step of survey evaluation (R67): best is the best eligible candidate. -/
def Survey.countLead (v : Survey) (best : Option Candidate) (margin : Nat) : Survey :=
  match best, v.servingScore with
  | some b, some score =>
    if b.score.toNat < min 255 (score.toNat + margin) then v.resetLead
    else if v.lead = some b.antenna then { v with leadCount := v.leadCount + 1 }
    else { v with lead := some b.antenna, leadCount := 1 }
  | _, _ => v.resetLead

/-- Survey evaluation and the Survey request (R67, R68). -/
def State.evaluate (s : State) (e : EntryNo) : State :=
  match s.entry e with
  | none => s
  | some x =>
    if s.suppressed e x then s.mapSurvey e Survey.resetLead
    else
      let v := x.survey.countLead (s.bestCandidate e 0) s.margin
      if s.dwell ≤ v.leadCount then
        (s.mapSurvey e fun _ => v.resetLead).raiseRequest e ⟨.survey, none, 0⟩
      else s.mapSurvey e fun _ => v

/-- The Evacuation request of a Sighting of a Lost beltpack (R71). -/
def State.considerEvacuation (s : State) (e : EntryNo) : State :=
  match s.entry e with
  | none => s
  | some x => if x.context.isNone && !s.queued e then s.raiseEvacuation e else s

/-! ### Sightings (R58, R59) -/

/-- The considerations of a Served beltpack, in order (R66); Fade follows a serving-score update alone. -/
def State.considerServed (s : State) (e : EntryNo) (fromServing : Bool) : State :=
  let s := s.considerDrain e
  let s := if fromServing then s.considerFade e else s
  s.evaluate e

/-- Whether an antenna is the one an entry's serving reference names. -/
def Entry.servedAt (x : Entry) (a : AntennaNo) : Bool :=
  match x.serving with
  | none => false
  | some (b, _) => b == a

/-- A Sighting digested for an entry (R59), and what follows (R66). -/
def State.digestSighting (s : State) (e : EntryNo) (a : AntennaNo) (quality : Byte) : State :=
  match s.entry e with
  | none => s
  | some x =>
    match x.state with
    | .unattached => s
    | st =>
      let s := if x.servedAt a then s.mapSurvey e (·.sampleServing quality s.smoothing)
        else s.mapSurvey e (·.update a quality s.smoothing s.candidateLifetime)
      match st with
      | .served => s.considerServed e (x.servedAt a)
      | .lost => s.considerEvacuation e
      | .unattached | .attaching | .moving => s

/-- A delivered Sighting (R58): a compact one names the entry of its slot, or nothing; an extended one an ID. -/
def State.takeSighting (s : State) (a : AntennaNo) : SightingForm → State
  | .compact slot q =>
    match (number? 8 slot).bind fun sl => (s.slot a sl).entry? with
    | none => s.latchStray
    | some e => s.digestSighting e a q
  | .extended id q =>
    match s.findId id with
    | none => s
    | some e => s.digestSighting e a q

/-! ### Seeks (R72 to R77) -/

/-- A Seek by an unknown ID (R77). -/
def State.hearStranger (s : State) (id : BeltpackId) (a : AntennaNo) (q : Byte) : State :=
  if s.strangers.contains id then s
  else
    let kept := if s.strangers.length < Config.strangerPlaces then s.strangers else s.strangers.drop 1
    { s with strangers := kept ++ [id] }.queueNotice (.strangerHeard id a q)

/-- The candidate of the seeking antenna set, and an Evacuation raised toward it (R74). -/
def State.seekEvacuation (s : State) (e : EntryNo) (a : AntennaNo) (q : Byte) : State :=
  (s.mapSurvey e (·.force a q s.candidateLifetime)).raiseRequest e ⟨.evacuation, some a, 0⟩

/-- A Served beltpack has left its serving antenna without a handoff (R12, R75). -/
def State.leftWithoutHandoff (s : State) (e : EntryNo) (b : AntennaNo) (sl : SlotNo) (a : AntennaNo) (q : Byte) :
    State :=
  ((s.releaseSlot b sl).loseServing e b).seekEvacuation e a q

/-- Whether a context takes a Seek as its seek restart (R102). -/
def Context.restarts (x : Context) (a : AntennaNo) : Bool :=
  x.target == some a && x.phase == .arrival && !x.restartUsed

/-- A Seek offered to the transaction's context (R76, R102): the restart, or nothing. -/
def State.offerSeek (s : State) (c : ContextNo) (a : AntennaNo) : State :=
  match s.ctx c with
  | none => s
  | some x =>
    if x.restarts a then
      (s.mapCtx c fun x => { x with restartUsed := true, arrivalTimer := some s.arrivalWindow }).postSummon c
    else s

/-- A Seek of an Admitted entry, by the state and transaction that it has when the Seek is taken (R72). R112 says of a Seek
from the former target after a window expiry that it "is then taken as a Sighting", and leaves open the case that the
disposal ended the transaction. DESIGN CHOICE, log entry 29: R72's table is followed there too, so a Served beltpack is made
Lost (R75), a Lost one is evacuated (R74), and an Unattached one seeks to attach (R73). Unsafe. -/
def State.seekEntry (s : State) (e : EntryNo) (x : Entry) (a : AntennaNo) (q : Byte) : State :=
  match x.context, x.state, x.serving with
  | some c, _, _ => (s.offerSeek c a).digestSighting e a q
  | none, .unattached, _ => s.raiseRequest e ⟨.attach, some a, 0⟩
  | none, .lost, _ => s.seekEvacuation e a q
  | none, .served, some (b, sl) =>
    if b = a then s.digestSighting e a q else s.leftWithoutHandoff e b sl a q
  | none, _, _ => s.digestSighting e a q

/-- A delivered Seek (R72). -/
def State.takeSeek (s : State) (a : AntennaNo) (id : BeltpackId) (q : Byte) : State :=
  if invalidId id then s.latchStray
  else match s.findId id with
    | none => s.hearStranger id a q
    | some e =>
      match s.entry e with
      | none => s
      | some x => if x.admission = .barred then s else s.seekEntry e x a q

/-! ### Arrivals (R158) -/

/-- Whether an Arrival is the one a transaction waits for (R100). -/
def Context.awaitsArrival (x : Context) (a : AntennaNo) (sl : SlotNo) : Bool :=
  x.target == some a && x.targetSlot == some sl
    && (x.phase == .cue || x.phase == .summon || x.phase == .arrival)

/-- Whether an Arrival is a fallback to the source of a Move (R101). -/
def Context.fallsBack (x : Context) (a : AntennaNo) (sl : SlotNo) : Bool :=
  x.kind == .move && x.source == some (a, sl) && x.phase == .arrival

/-- An Arrival offered to a context: taken, a fallback with NOARRIVAL, or a stray. -/
def State.offerArrival (s : State) (c : ContextNo) (x : Context) (a : AntennaNo) (sl : SlotNo) : State :=
  if x.awaitsArrival a sl then s.takeTargetArrival c x a sl
  else if x.fallsBack a sl then s.dispose c Condition.noArrival.bit
  else s.latchStray

/-- A delivered Arrival (R158): offered to the context that runs the entry's transaction; every other one is a stray. -/
def State.takeArrival (s : State) (a : AntennaNo) (id : BeltpackId) (slot : Byte) : State :=
  match (s.findId id).bind fun e => (s.entry e).bind (·.context), number? 8 slot with
  | some c, some sl =>
    match s.ctx c with
    | none => s.latchStray
    | some x => s.offerArrival c x a sl
  | _, _ => s.latchStray

/-! ### Sign-offs (R17, R109) -/

/-- The slot of a serving reference or a source goes to Releasing. -/
def State.releaseAt (s : State) : Option (AntennaNo × SlotNo) → State
  | none => s
  | some (a, sl) => s.releaseSlot a sl

/-- A transaction ends by a Sign-off (R109): its Reserved target and its Occupied source or new serving slot go to
Releasing, the awaited order is left, the context is freed, and no notice is queued. -/
def State.signOffTransaction (s : State) (c : ContextNo) : State :=
  (s.giveUpAttempt c).putCtx c none

/-- A delivered Sign-off (R17). The slot that serves the beltpack is the source of a Move before its Arrival and the new
serving slot in its Release phase. -/
def State.takeSignOff (s : State) (id : BeltpackId) : State :=
  match s.findId id with
  | none => s
  | some e =>
    match s.entry e with
    | none => s
    | some x =>
      let s := match x.context with
        | none => s
        | some c => s.signOffTransaction c
      let s := (s.releaseAt x.serving).removeRequest e
      if x.state = .unattached then s else s.detachWith e .signOff

/-! ### Delivery (R158) -/

/-- A report as it is taken from a good frame. -/
inductive Report where
  | sighting (form : SightingForm)
  | seek (id : BeltpackId) (quality : Byte)
  | arrival (id : BeltpackId) (slot : Byte)
  | signOff (id : BeltpackId)
deriving DecidableEq, Repr

/-- A report goes to its block, and the dispatch it makes possible follows. -/
def State.deliver (s : State) (a : AntennaNo) (r : Report) : State :=
  State.settle <|
    match r with
    | .sighting f => s.takeSighting a f
    | .seek id q => s.takeSeek a id q
    | .arrival id sl => s.takeArrival a id sl
    | .signOff id => s.takeSignOff id

/-- Whether a report is delivered: the link state is not Absent (R158). -/
def State.delivers (s : State) (a : AntennaNo) : Bool := (s.ant a).link != .absent

/-- A report taken at a port: discarded without a flag on an Absent port, else delivered (R158). -/
def State.takeReport (s : State) (a : AntennaNo) (r : Report) : State :=
  if s.delivers a then s.deliver a r else s

end Sys2Proof.Machine
end

