-- ==== Sys2Proof/Machine/Replies.lean ====
section
/-! DEFINITION. Replies and timeouts at a port: matching (R156), Status (R29), the outcomes of orders (R50, R96 to R98, R102), probe misses (R30) and order timeouts (R31, R32, R157). -/

namespace Sys2Proof.Machine

/-! ### Outcomes at the context that awaits an order -/

/-- A context posts a Cue to its source (R97). -/
def State.postCue (s : State) (c : ContextNo) : State :=
  match s.ctx c with
  | none => s
  | some x =>
    match x.source, x.target, x.targetSlot, s.entry x.entry with
    | some (b, _), some a, some sl, some y =>
      (s.mapCtx c fun x => { x with phase := .cue }).postAwaited c b ⟨.cue a, y.id, sl, .context c⟩
    | _, _, _, _ => s

/-- The Arrival phase begins (R99). -/
def State.beginArrival (s : State) (c : ContextNo) : State :=
  s.mapCtx c fun x => { x with phase := .arrival, arrivalTimer := some s.arrivalWindow }

/-- The Ack of the awaited order, by phase (R96 to R98, R102). -/
def State.ackOutcome (s : State) (c : ContextNo) : State :=
  match s.ctx c with
  | none => s
  | some x =>
    let s := s.mapCtx c fun x => { x with awaited := none }
    match x.phase, x.kind with
    | .reserve, .move => s.postCue c
    | .reserve, _ => (s.mapCtx c fun x => { x with phase := .summon }).postSummon c
    | .cue, _ | .summon, _ => s.beginArrival c
    | .arrival, _ | .release, _ => s

/-- The outcomes an order can have. -/
inductive OrderOutcome where
  | acked | refused | timedOut
deriving DecidableEq, Repr

/-- The outcome of an order goes to the poster that awaits it, if one still does (R50, R95, R156, R157). A Refuse of a
Release is taken as an Ack. A Release timeout of a transaction in its Release phase is accrued first (R50). -/
def State.giveOutcome (s : State) (a : AntennaNo) (o : Order) (w : OrderOutcome) : State :=
  match o.poster with
  | .nobody => s
  | .context c =>
    match w with
    | .acked => s.ackOutcome c
    | .refused => s.dispose c Condition.refused.bit
    | .timedOut => s.dispose c Condition.orderLate.bit
  | .slot sl =>
    let s := match w, (s.slot a sl).entry? with
      | .timedOut, some e => if (s.releasedBy a sl e).isSome then s.recordReleaseTimeout e else s
      | _, _ => s
    s.endRelease a sl

/-! ### Replies (R156) -/

/-- Whether an Ack or a Refuse carries the order's type, ID and slot (R156, R181). -/
def Order.matchesReply (o : Order) (orderType : Byte) (id : BeltpackId) (slot : Byte) : Bool :=
  orderType == o.body.type.code && id == o.id && slot == byte o.slot

/-- The order in flight at a port. -/
def Port.orderInFlight (p : Port) : Option Order :=
  match p.inFlight with
  | some ⟨.order o, _, _⟩ => some o
  | _ => none

/-- Whether a probe is in flight at a port. -/
def Port.probeInFlight (p : Port) : Bool :=
  match p.inFlight with
  | some ⟨.probe, _, _⟩ => true
  | _ => false

/-- An Ack or a Refuse taken at a port (R156): it ends the order's exchange and resets the order miss count, or it is a
stray. -/
def State.takeOrderReply (s : State) (a : AntennaNo) (orderType : Byte) (id : BeltpackId) (slot : Byte)
    (w : OrderOutcome) : State :=
  match (s.port a).orderInFlight with
  | none => s.latchStray
  | some o =>
    if o.matchesReply orderType id slot then
      let s := (s.endExchange a).mapAnt a fun r => { r with orderMisses := 0 }
      ((s.giveOutcome a o w).beginExchange a).settle
    else s.latchStray

/-- The mode byte of a Status (R181). -/
def statusMode (mode : Byte) : Option LinkState :=
  if mode = 0x01 then some .serveCapable else if mode = 0x02 then some .listenOnly else none

/-- A Status taken at a port (R29, R32, R156): a reply to the probe in flight sets the link state and the fault marker
together; any other is a stray. -/
def State.takeStatus (s : State) (a : AntennaNo) (mode faultFlag : Byte) : State :=
  match statusMode mode, (s.port a).probeInFlight with
  | some l, true =>
    let s := s.endExchange a
    let s := s.changeAndSweep a none fun r =>
      { r with probeMisses := 0, link := l, fault := r.fault || faultFlag != 0 }
    (s.beginExchange a).settle
  | _, _ => s.latchStray

/-- A reply taken at a port by its type (R156). -/
def State.takeReply (s : State) (a : AntennaNo) : PortReply → State
  | .status mode f => s.takeStatus a mode f
  | .ack t id sl => s.takeOrderReply a t id sl .acked
  | .refuse t id sl => s.takeOrderReply a t id sl .refused

/-! ### Expiry of a reply timer (R157) -/

/-- A probe miss (R30): the count rises to 3; the third consecutive one makes the link Absent. -/
def State.missProbe (s : State) (a : AntennaNo) : State :=
  let n := min Config.missLimit ((s.ant a).probeMisses + 1)
  let s := s.changeAndSweep (a := a) (late := none) fun r =>
    { r with probeMisses := n, link := if n = Config.missLimit then .absent else r.link }
  (s.beginExchange a).settle

/-- An order timeout raises the order miss count; the second in a row sets the fault marker (R31, R32). -/
def Antenna.countTimeout (r : Antenna) : Antenna :=
  let n := min Config.orderMissLimit (r.orderMisses + 1)
  { r with orderMisses := n, fault := r.fault || n == Config.orderMissLimit }

/-- Whether an order timeout now ends the antenna's carrying. -/
def Antenna.timeoutCloses (r : Antenna) : Bool := r.carrying && !r.countTimeout.carrying

/-- An order times out (R32, R157). A Release is ended before the count rises; the timeout of a context's order is
disposed of with the sweep's condition where the count sets the fault marker, else by itself. -/
def State.timeOutOrder (s : State) (a : AntennaNo) (o : Order) : State :=
  let s := match o.poster with
    | .slot _ => (s.giveOutcome a o .timedOut).changeAndSweep a none Antenna.countTimeout
    | .nobody => s.changeAndSweep a none Antenna.countTimeout
    | .context c =>
      if (s.ant a).timeoutCloses then s.changeAndSweep a (some c) Antenna.countTimeout
      else (s.changeAndSweep a none Antenna.countTimeout).giveOutcome a o .timedOut
  (s.beginExchange a).settle

end Sys2Proof.Machine
end

