-- ==== Sys2Proof/Machine/LinkCommands.lean ====
section
/-! DEFINITION. RESET and the commands of the Host Link and the Policy Table (chapter 11). -/

namespace Sys2Proof.Machine

/-! ### Reset (R162) -/

/-- RESET: every block returns to its reset state, with the Started notice queued. The commands that wait and the
free-value index are the model's own and stay (log entry 5). -/
def execReset (s : State) : StepOutcome :=
  .next { State.reset with pending := s.pending, freeIndex := s.freeIndex }

/-! ### Identify (R177) -/

/-- The answer of Identify. -/
def identifyBody (s : State) : CommandReply := .answer identity s

/-- IDENTIFY. -/
def execIdentify (s : State) : StepOutcome := hostCommand 0x01 identifyBody s

/-! ### Read Domain Status (R174) -/

/-- The latched flags byte (12.5). -/
def LatchedFlags.bits (f : LatchedFlags) : Byte :=
  flagBits [f.frameErrors, f.trunkErrors, f.stray, f.noticesDiscarded, f.antennaChangesSeen]

/-- The payload of the answer (12.5). -/
def State.domainStatus (s : State) : List Byte :=
  [flagByte s.running, byte s.openAntennas, byte s.rosterCount, byte s.queue.length, byte s.busyContexts,
   byte s.link.notices.length, s.link.flags.bits, s.link.domainAccrued]

/-- The read, which then clears the five flags and the domain accrued set. -/
def readDomainStatusBody (s : State) : CommandReply :=
  .answer s.domainStatus (s.mapLink fun l => { l with flags := {}, domainAccrued := 0 })

/-- READ_DOMAIN_STATUS. -/
def execReadDomainStatus (s : State) : StepOutcome := hostCommand 0x02 readDomainStatusBody s

/-! ### Set Link Rate (R169) -/

/-- The rate of a rate code (12.3). -/
def linkRate? (b : Byte) : Option LinkRate :=
  match b.toNat with
  | 0 => some .bps57600
  | 1 => some .bps115200
  | 2 => some .bps230400
  | 3 => some .bps460800
  | 4 => some .bps921600
  | _ => none

/-- The new rate waits on the command in execution until its answer has been sent; the rate in force changes nothing. -/
def setLinkRateBody (code : Byte) (s : State) : CommandReply :=
  match linkRate? code with
  | none => .refuse .badValue
  | some r =>
    if r = s.link.rate then .answer [] s
    else .answer [] (s.mapLink fun l =>
      { l with execution := l.execution.map fun x => { x with newRate := some r } })

/-- SET_LINK_RATE. -/
def execSetLinkRate (code : Byte) (s : State) : StepOutcome := hostCommand 0x03 (setLinkRateBody code) s

/-! ### Set Notice Mode and Fetch Notice (R171 to R173) -/

/-- The mode of a mode byte (12.3). -/
def noticeMode? (b : Byte) : Option NoticeMode :=
  match b.toNat with
  | 0 => some .push
  | 1 => some .pull
  | _ => none

/-- The selection with the flag of Handoff Held, which is held set (R171). -/
def heldSelection (v : BitVec 16) : BitVec 16 := v ||| 0x0008

/-- Mode and selection in one step; bits 11 to 15 of the selection must be 0. -/
def setNoticeModeBody (mode : Byte) (selection : BitVec 16) (s : State) : CommandReply :=
  match noticeMode? mode with
  | none => .refuse .badValue
  | some m =>
    if selection &&& 0xF800 != 0 then .refuse .badValue
    else .answer [] (s.mapLink fun l => { l with mode := m, selection := heldSelection selection })

/-- SET_NOTICE_MODE. -/
def execSetNoticeMode (mode : Byte) (selection : BitVec 16) (s : State) : StepOutcome :=
  hostCommand 0x04 (setNoticeModeBody mode selection) s

/-- In pull mode the oldest notice is taken, or the answer is empty; in push mode STATE. -/
def fetchNoticeBody (s : State) : CommandReply :=
  match s.link.mode, s.link.notices with
  | .push, _ => .refuse .state
  | .pull, [] => .answer [] s
  | .pull, n :: ns => .answer (n.code :: n.payload) (s.mapLink fun l => { l with notices := ns })

/-- FETCH_NOTICE. -/
def execFetchNotice (s : State) : StepOutcome := hostCommand 0x05 fetchNoticeBody s

/-! ### The Policy Table (R175, R176) -/

/-- The field range of an item (12.4), numbered from 0 for item 1; the least and the greatest field. -/
def fieldRange (i : Fin 16) : Nat × Nat :=
  match i.val with
  | 0 => (0, 63)
  | 1 | 2 => (0, 15)
  | 3 | 4 | 5 | 6 => (0, 255)
  | 7 => (2, 100)
  | 8 => (1, 25)
  | 9 => (1, 100)
  | 10 => (1, 60)
  | 11 => (0, 3)
  | 12 => (1, 255)
  | 13 => (0, 7)
  | 14 => (0, 63)
  | _ => (0, 1)

/-- The place of an item number, 1 to 16. -/
def itemPlace? (item : Byte) : Option (Fin 16) :=
  if item.toNat = 0 then none else number? 16 (item - 1)

/-- An item number or a field out of range is refused; else the field is stored. -/
def setPolicyItemBody (item field : Byte) (s : State) : CommandReply :=
  match itemPlace? item with
  | none => .refuse .badValue
  | some i =>
    if (fieldRange i).1 ≤ field.toNat ∧ field.toNat ≤ (fieldRange i).2 then
      .answer [item, field] { s with policy := s.policy.set i field }
    else .refuse .badValue

/-- SET_POLICY_ITEM. -/
def execSetPolicyItem (item field : Byte) (s : State) : StepOutcome :=
  hostCommand 0x08 (setPolicyItemBody item field) s

/-- The 16 fields in item order. -/
def readPolicyBody (s : State) : CommandReply := .answer s.policy.toList s

/-- READ_POLICY. -/
def execReadPolicy (s : State) : StepOutcome := hostCommand 0x09 readPolicyBody s

end Sys2Proof.Machine
end

