-- ==== Sys2Proof/Machine/AntennaCommands.lean ====
section
/-! DEFINITION. The commands of the trunk and the antennas: Trunk Start and Trunk Stop (R27, R145 to R147), Read Antenna (R42), Set Antenna Service (R34 to R38), Clear Antenna Fault (R33), Set Port Loopback (R39). -/

namespace Sys2Proof.Machine

/-! ### Trunk Start (R27) -/

/-- A port begins to probe: its probe timer runs, and a probe is due. -/
def Port.startProbing (p : Port) (interval : Nat) : Port :=
  { p with probeTimer := some interval, probeDue := true }

/-- One port at Trunk Start; the due probe is sent at once (R154). -/
def State.startPort (s : State) (a : AntennaNo) : State :=
  (s.mapPort a (·.startProbing s.probeInterval)).beginExchange a

/-- The trunk becomes running, the miss counts start from 0, every port begins to probe. -/
def trunkStartBody (s : State) : CommandReply :=
  if s.running then .refuse .state
  else
    let s := { s with running := true,
                      antennas := s.antennas.map fun r => { r with probeMisses := 0, orderMisses := 0 } }
    .answer [] ((List.finRange 24).foldl State.startPort s)

/-- TRUNK_START. -/
def execTrunkStart (s : State) : StepOutcome := hostCommand 0x10 trunkStartBody s

/-! ### Trunk Stop (R18, R145 to R147) -/

/-- An antenna record at Trunk Stop: Absent, emptied, counts 0; the marker, admin state, loopback mode and change flag
are kept. -/
def Antenna.stop (r : Antenna) : Antenna :=
  { r with link := .absent, probeMisses := 0, orderMisses := 0, slots := Vector.replicate 8 .free,
           lanes := Vector.replicate 4 none }

/-- The number of entries that are not Unattached (R147). -/
def State.attachedCount (s : State) : Nat :=
  (s.roster.toList.filter fun x => x.any (·.state != .unattached)).length

/-- Everything that Trunk Stop clears in one command (R145, R146). -/
def State.stopTrunk (s : State) : State :=
  { s with running := false,
           antennas := s.antennas.map Antenna.stop,
           ports := s.ports.map fun _ => {},
           contexts := s.contexts.map fun _ => none,
           queue := [],
           roster := s.roster.map fun x => x.map Entry.offAir }

/-- Trunk Stop with its one notice. -/
def trunkStopBody (s : State) : CommandReply :=
  if !s.running then .refuse .state
  else .answer [] (s.stopTrunk.queueNotice (.trunkStopped s.attachedCount s.busyContexts))

/-- TRUNK_STOP. -/
def execTrunkStop (s : State) : StepOutcome := hostCommand 0x11 trunkStopBody s

/-! ### Read Antenna (R42) -/

/-- The two bytes of a slot (12.5). -/
def Slot.bytes : Slot → List Byte
  | .free => [0, 0xFF]
  | .reserved e => [1, byte e]
  | .occupied e => [2, byte e]
  | .releasing e => [3, byte e]

/-- The two bytes of a lane (12.5). -/
def laneBytes : Option Lane → List Byte
  | none => [0, 0]
  | some l => [byte l.group, byte l.users]

/-- The 33 bytes of the answer (12.5). -/
def State.antennaBytes (s : State) (a : AntennaNo) : List Byte :=
  let r := s.ant a
  let p := s.port a
  [byte a, byte r.link.code, flagByte r.fault, byte r.admin.code, byte r.loopback.code,
   flagBits [r.carrying, r.open, r.changed, p.inFlight.isSome],
   byte r.probeMisses, byte r.orderMisses, byte p.fifo.length]
  ++ r.slots.toList.flatMap Slot.bytes ++ r.lanes.toList.flatMap laneBytes

/-- The read, which then clears the change flag. -/
def readAntennaBody (b : Byte) : State → CommandReply :=
  withAntenna b fun a s => .answer (s.antennaBytes a) (s.mapAnt a fun r => { r with changed := false })

/-- READ_ANTENNA. -/
def execReadAntenna (antenna : Byte) (s : State) : StepOutcome := hostCommand 0x12 (readAntennaBody antenna) s

/-! ### Set Antenna Service (R34 to R38) -/

/-- The answer of Set Antenna Service: the admin state after the command. -/
def serviceAnswer (a : AntennaNo) (s : State) : CommandReply := .answer [byte (s.ant a).admin.code] s

/-- The In service action (R35). -/
def inServiceBody (b : Byte) : State → CommandReply :=
  withAntenna b fun a s => serviceAnswer a (s.changeAntenna a fun r => { r with admin := .inService })

/-- IN_SERVICE_ACTION. -/
def execInServiceAction (antenna : Byte) (s : State) : StepOutcome := hostCommand 0x13 (inServiceBody antenna) s

/-- A drain that is complete when the Drain action is taken (R36): Out of service at once, with its notices. -/
def State.drainAtOnce (s : State) (a : AntennaNo) : State :=
  (s.changeAntenna a fun r => { r with admin := .outOfService }).queueNotice (.drainComplete a .moves)

/-- The Drain action (R36). -/
def drainBody (b : Byte) : State → CommandReply :=
  withAntenna b fun a s =>
    match (s.ant a).admin, (s.ant a).allFree with
    | .outOfService, _ => .refuse .state
    | _, true => serviceAnswer a (s.drainAtOnce a)
    | _, false => serviceAnswer a (s.changeAntenna a fun r => { r with admin := .draining })

/-- DRAIN_ACTION. -/
def execDrainAction (antenna : Byte) (s : State) : StepOutcome := hostCommand 0x13 (drainBody antenna) s

/-- The Out of service action (R37). -/
def outOfServiceBody (b : Byte) : State → CommandReply :=
  withAntenna b fun a s =>
    if (s.ant a).admin = .outOfService then serviceAnswer a s
    else if (s.ant a).allFree then
      serviceAnswer a (s.changeAntenna a fun r => { r with admin := .outOfService })
    else .refuse .state

/-- OUT_OF_SERVICE_ACTION. -/
def execOutOfServiceAction (antenna : Byte) (s : State) : StepOutcome :=
  hostCommand 0x13 (outOfServiceBody antenna) s

/-- The Force out action (R38, R143), with the dispatch its sweep makes possible (R139). -/
def forceOutBody (b : Byte) : State → CommandReply :=
  withAntenna b fun a s =>
    if (s.ant a).admin = .outOfService then serviceAnswer a s
    else serviceAnswer a (s.changeAndSweep a none fun r => { r with admin := .outOfService }).settle

/-- FORCE_OUT. -/
def execForceOut (antenna : Byte) (s : State) : StepOutcome := hostCommand 0x13 (forceOutBody antenna) s

/-! ### Clear Antenna Fault (R33) -/

/-- Refused unless Serve-capable; a set marker is cleared with the order miss count. -/
def clearAntennaFaultBody (b : Byte) : State → CommandReply :=
  withAntenna b fun a s =>
    if (s.ant a).link ≠ .serveCapable then .refuse .state
    else if (s.ant a).fault then
      .answer [] (s.changeAntenna a fun r => { r with fault := false, orderMisses := 0 })
    else .answer [] s

/-- CLEAR_ANTENNA_FAULT. -/
def execClearAntennaFault (antenna : Byte) (s : State) : StepOutcome :=
  hostCommand 0x14 (clearAntennaFaultBody antenna) s

/-! ### Set Port Loopback (R39) -/

/-- The loopback mode of a mode byte (12.3). -/
def loopbackMode? (b : Byte) : Option LoopbackMode :=
  match b.toNat with
  | 0 => some .off
  | 1 => some .ackAll
  | 2 => some .refuseReserves
  | 3 => some .silent
  | _ => none

/-- The antenna record under a new mode: both miss counts 0, and Absent where loopback begins or ends. -/
def Antenna.withLoopback (r : Antenna) (m : LoopbackMode) : Antenna :=
  { r with loopback := m, probeMisses := 0, orderMisses := 0,
           link := if r.loopback = .off ∨ m = .off then .absent else r.link }

/-- The port under a new mode: a probe in flight is dropped without a miss, and the receiver hunts (R39, R152). -/
def Port.withLoopback (p : Port) : Port :=
  { p with receiver := .hunting, inFlight := if p.probeInFlight then none else p.inFlight }

/-- A mode that differs from the present one is set. Every slot is Free, so the closing sweep of an antenna that was
carrying has only the port to clear; the admin state is not changed (log entry 10). -/
def State.setLoopback (s : State) (a : AntennaNo) (m : LoopbackMode) : State :=
  let was := (s.ant a).carrying
  let s := (s.changeAntenna a (·.withLoopback m)).mapPort a Port.withLoopback
  if was && !(s.ant a).carrying then (s.mapPort a Port.clear).mapLanes a fun _ => Vector.replicate 4 none else s

/-- Set Port Loopback. -/
def setPortLoopbackBody (b mode : Byte) : State → CommandReply :=
  withAntenna b fun a s =>
    match loopbackMode? mode with
    | none => .refuse .badValue
    | some m =>
      if !(s.ant a).allFree then .refuse .state
      else if (s.ant a).loopback = m then .answer [] s
      else .answer [] (s.setLoopback a m)

/-- SET_PORT_LOOPBACK. -/
def execSetPortLoopback (antenna mode : Byte) (s : State) : StepOutcome :=
  hostCommand 0x15 (setPortLoopbackBody antenna mode) s

end Sys2Proof.Machine
end

