-- ==== Sys2Proof/Machine/InjectCommands.lean ====
section
/-! DEFINITION. Inject Report (R161): the report's fields by its kind, the checks in order, and the delivery. -/

namespace Sys2Proof.Machine

/-- The report kinds (R161), by their trunk Types (12.3). -/
inductive ReportKind where
  | sighting | seek | arrival | signOff
deriving DecidableEq, Repr

/-- The kind of a trunk Type, if it is a report's (R150). -/
def reportKind? (b : Byte) : Option ReportKind :=
  match b.toNat with
  | 0x44 => some .sighting
  | 0x45 => some .seek
  | 0x46 => some .arrival
  | 0x47 => some .signOff
  | _ => none

/-- A report from its trunk payload (12.2), if the length is a length of its kind; a Sighting has two. -/
def report? : ReportKind → List Byte → Option Report
  | .sighting, [sl, q] => some (.sighting (.compact sl q))
  | .sighting, [x, y, z, q] => some (.sighting (.extended (id3 x y z) q))
  | .seek, [x, y, z, q] => some (.seek (id3 x y z) q)
  | .arrival, [x, y, z, sl] => some (.arrival (id3 x y z) sl)
  | .signOff, [x, y, z] => some (.signOff (id3 x y z))
  | _, _ => none

/-- Inject Report once antenna and kind are in range: a length of the kind, a looped-back port, then the report is taken;
the answer says whether it was delivered. -/
def injectBody (b : Byte) (k : ReportKind) (fields : List Byte) : State → CommandReply :=
  withAntenna b fun a s =>
    match report? k fields with
    | none => .refuse .length
    | some r =>
      if (s.ant a).loopback = .off then .refuse .state
      else .answer [flagByte (s.delivers a)] (s.takeReport a r)

/-- INJECT_SIGHTING. -/
def execInjectSighting (antenna : Byte) (fields : List Byte) (s : State) : StepOutcome :=
  hostCommand 0x16 (injectBody antenna .sighting fields) s

/-- INJECT_SEEK. -/
def execInjectSeek (antenna : Byte) (fields : List Byte) (s : State) : StepOutcome :=
  hostCommand 0x16 (injectBody antenna .seek fields) s

/-- INJECT_ARRIVAL. -/
def execInjectArrival (antenna : Byte) (fields : List Byte) (s : State) : StepOutcome :=
  hostCommand 0x16 (injectBody antenna .arrival fields) s

/-- INJECT_SIGN_OFF. -/
def execInjectSignOff (antenna : Byte) (fields : List Byte) (s : State) : StepOutcome :=
  hostCommand 0x16 (injectBody antenna .signOff fields) s

end Sys2Proof.Machine
end

