-- ==== Sys2Proof/Machine/BeltpackCommands.lean ====
section
/-! DEFINITION. The commands about beltpacks (chapter 2, R111, R130 to R132, R178). -/

namespace Sys2Proof.Machine

/-! ### Enrol and Withdraw (R4, R5) -/

/-- A new entry (2.1): off air, admitted, with the class and groups given. -/
def newEntry (id : BeltpackId) (cls : ClassNo) (groups : Option Group × Option Group) : Entry :=
  { id := id, cls := cls, groupA := groups.1, groupB := groups.2 }

/-- Enrol Beltpack: values, DUPLICATE, ROSTERFULL; then the entry at the lowest free index, and the ID off the Stranger
List. -/
def enrolBody (id : BeltpackId) (cls ga gb : Byte) (s : State) : CommandReply :=
  match invalidId id, number? 4 cls, groups? ga gb with
  | false, some k, some g =>
    if (s.findId id).isSome then .refuse .duplicate
    else match s.lowestIndex with
      | none => .refuse .rosterFull
      | some e =>
        .answer [byte e]
          { s.putEntry e (some (newEntry id k g)) with strangers := s.strangers.filter (· != id) }
  | _, _, _ => .refuse .badValue

/-- ENROL_BELTPACK. -/
def execEnrolBeltpack (id : BeltpackId) (cls groupA groupB : Byte) (s : State) : StepOutcome :=
  hostCommand 0x20 (enrolBody id cls groupA groupB) s

/-- Withdraw Beltpack: INTRANSIT for a transaction or an unsettled slot, STATE for a Served beltpack; else the entry and
its request go. -/
def withdrawBody (ref : BeltpackRef) : State → CommandReply :=
  withBeltpack ref (some ()) true fun e x _ s =>
    if x.context.isSome || s.holdsUnsettledSlot e then .refuse .inTransit
    else match x.state with
      | .unattached | .lost => .answer [] ((s.removeRequest e).putEntry e none)
      | .attaching | .served | .moving => .refuse .state

/-- WITHDRAW_BELTPACK. -/
def execWithdrawBeltpack (ref : BeltpackRef) (s : State) : StepOutcome := hostCommand 0x21 (withdrawBody ref) s

/-! ### Groups, class, pin, admission (R19 to R21) -/

/-- The groups of an entry replaced. -/
def Entry.withGroups (x : Entry) (g : Option Group × Option Group) : Entry :=
  { x with groupA := g.1, groupB := g.2 }

/-- Set Groups once its values are in range: INTRANSIT, then by state; a Served beltpack has its lanes re-accounted or is
refused with NOLANE (R19, R55, R56). -/
def regroup (e : EntryNo) (x : Entry) (g : Option Group × Option Group) (s : State) : CommandReply :=
  if x.context.isSome || s.holdsUnsettledSlot e then .refuse .inTransit
  else match x.state, x.serving with
    | .served, some (a, _) =>
      let old := presentGroups x.groupA x.groupB
      let new := presentGroups g.1 g.2
      if Lanes.canRegroup (s.ant a).lanes old new then
        .answer [] ((s.mapLanes a fun t => Lanes.regroup t old new).mapEntry e (·.withGroups g))
      else .refuse .noLane
    | _, _ => .answer [] (s.mapEntry e (·.withGroups g))

/-- Set Groups. R19 refuses two equal present groups with BADVALUE "after the checks of R3", and step 2 of R3 speaks of
ranges; for a beltpack with a posted fault the spec leaves open whether BADVALUE or POSTED comes. DESIGN CHOICE, log entry
28: both tests of the groups are made at step 2, before the posted fault. Unsafe. -/
def setGroupsBody (ref : BeltpackRef) (ga gb : Byte) : State → CommandReply :=
  withBeltpack ref (groups? ga gb) true regroup

/-- SET_GROUPS. -/
def execSetGroups (ref : BeltpackRef) (groupA groupB : Byte) (s : State) : StepOutcome :=
  hostCommand 0x23 (setGroupsBody ref groupA groupB) s

/-- Set Class. -/
def setClassBody (ref : BeltpackRef) (cls : Byte) : State → CommandReply :=
  withBeltpack ref (number? 4 cls) true fun e _ k s => .answer [] (s.mapEntry e fun x => { x with cls := k })

/-- SET_CLASS. -/
def execSetClass (ref : BeltpackRef) (cls : Byte) (s : State) : StepOutcome :=
  hostCommand 0x24 (setClassBody ref cls) s

/-- A byte of two values, 0 and 1 (R182). -/
def bit? (b : Byte) : Option Bool := if b = 0 then some false else if b = 1 then some true else none

/-- Set Pin. -/
def setPinBody (ref : BeltpackRef) (pin : Byte) : State → CommandReply :=
  withBeltpack ref (bit? pin) true fun e _ p s => .answer [] (s.mapEntry e fun x => { x with pinned := p })

/-- SET_PIN. -/
def execSetPin (ref : BeltpackRef) (pin : Byte) (s : State) : StepOutcome :=
  hostCommand 0x25 (setPinBody ref pin) s

/-- Set Admission: taken while a fault is posted. -/
def setAdmissionBody (ref : BeltpackRef) (admission : Byte) : State → CommandReply :=
  withBeltpack ref (bit? admission) false fun e _ barred s =>
    .answer [] (s.mapEntry e fun x => { x with admission := if barred then .barred else .admitted })

/-- SET_ADMISSION. -/
def execSetAdmission (ref : BeltpackRef) (admission : Byte) (s : State) : StepOutcome :=
  hostCommand 0x2B (setAdmissionBody ref admission) s

/-! ### Direct Handoff, Cancel Request, Detach (R178, R111, R16) -/

/-- Direct Handoff: the checks 3 to 7 of R178 after the reference and the antenna, then the Directed request. -/
def directHandoffBody (ref : BeltpackRef) (antenna : Byte) : State → CommandReply :=
  withBeltpack ref (number? 24 antenna) true fun e x a s =>
    if x.context.isSome then .refuse .inTransit
    else if x.state = .unattached ∧ x.admission = .barred then .refuse .state
    else if !(s.ant a).open then .refuse .notOpen
    else if s.hostRaiseFull e then .refuse .queueFull
    else .answer [] (s.raiseRequest e ⟨.directed, some a, 0⟩).settle

/-- DIRECT_HANDOFF. -/
def execDirectHandoff (ref : BeltpackRef) (antenna : Byte) (s : State) : StepOutcome :=
  hostCommand 0x26 (directHandoffBody ref antenna) s

/-- A transaction cancelled in its Reserve phase ends as Stay would end it, with no condition (R111). -/
def State.cancelTransaction (s : State) (c : ContextNo) : State := ((s.giveUpAttempt c).endTransaction c).settle

/-- Cancel Request: a queued request is removed, a transaction in Reserve is cancelled, a later phase is TOOLATE, and
neither is STATE. -/
def cancelBody (ref : BeltpackRef) : State → CommandReply :=
  withBeltpack ref (some ()) true fun e x _ s =>
    if s.queued e then .answer [] (s.removeRequest e)
    else match x.context with
      | none => .refuse .state
      | some c =>
        match s.ctx c with
        | none => .refuse .state
        | some t => if t.phase = .reserve then .answer [] (s.cancelTransaction c) else .refuse .tooLate

/-- CANCEL_REQUEST. -/
def execCancelRequest (ref : BeltpackRef) (s : State) : StepOutcome := hostCommand 0x27 (cancelBody ref) s

/-- Detach Beltpack (R16). -/
def detachBody (ref : BeltpackRef) : State → CommandReply :=
  withBeltpack ref (some ()) true fun e x _ s =>
    if x.context.isSome then .refuse .inTransit else .answer [] (s.detach e x)

/-- DETACH_BELTPACK. -/
def execDetachBeltpack (ref : BeltpackRef) (s : State) : StepOutcome := hostCommand 0x28 (detachBody ref) s

/-! ### Resolve Fault (R130 to R132) -/

/-- A posting cleared. -/
def State.clearPosting (s : State) (e : EntryNo) : State := s.mapEntry e fun x => { x with posted := none }

/-- Resolve Fault up to its action: the reference, then STATE where no fault is posted. -/
def resolveBody (ref : BeltpackRef) (k : EntryNo → Entry → PostedFault → State → CommandReply) :
    State → CommandReply :=
  withBeltpack ref (some ()) false fun e x _ s =>
    match x.posted with
    | none => .refuse .state
    | some p => k e x p s

/-- Dismiss (R130). -/
def dismissBody (ref : BeltpackRef) : State → CommandReply :=
  resolveBody ref fun e _ _ s => .answer [] (s.clearPosting e)

/-- RESOLVE_FAULT_DISMISS. -/
def execResolveFaultDismiss (ref : BeltpackRef) (s : State) : StepOutcome := hostCommand 0x2A (dismissBody ref) s

/-- The exclusion that a Drain raised again holds for a Served beltpack: its serving antenna (R79, R131). -/
def drainExclusion (x : Entry) (cause : Cause) : AntennaSet :=
  if cause = .drain ∧ x.state = .served then optionBit (x.serving.map (·.1)) else 0

/-- A raise from the host for a posted beltpack (R84, R131): INTRANSIT, QUEUEFULL, or the posting cleared and the request
raised. -/
def resolveRaise (e : EntryNo) (x : Entry) (w : Raise) (s : State) : CommandReply :=
  if x.context.isSome then .refuse .inTransit
  else if s.hostRaiseFull e then .refuse .queueFull
  else .answer [] ((s.clearPosting e).raiseRequest e w).settle

/-- Retry (R131): the posted cause toward the posted target. -/
def retryBody (ref : BeltpackRef) : State → CommandReply :=
  resolveBody ref fun e x p => resolveRaise e x ⟨p.cause, p.target, drainExclusion x p.cause⟩

/-- RESOLVE_FAULT_RETRY. -/
def execResolveFaultRetry (ref : BeltpackRef) (s : State) : StepOutcome := hostCommand 0x2A (retryBody ref) s

/-- Next (R131): the posted cause with the posted target excluded. -/
def nextBody (ref : BeltpackRef) : State → CommandReply :=
  resolveBody ref fun e x p =>
    resolveRaise e x ⟨p.cause, none, drainExclusion x p.cause ||| optionBit p.target⟩

/-- RESOLVE_FAULT_NEXT. -/
def execResolveFaultNext (ref : BeltpackRef) (s : State) : StepOutcome := hostCommand 0x2A (nextBody ref) s

/-- Detach (R132): the posting cleared, then as Detach Beltpack. -/
def resolveDetachBody (ref : BeltpackRef) : State → CommandReply :=
  resolveBody ref fun e x _ s =>
    if x.context.isSome then .refuse .inTransit else .answer [] ((s.clearPosting e).detach e x)

/-- RESOLVE_FAULT_DETACH. -/
def execResolveFaultDetach (ref : BeltpackRef) (s : State) : StepOutcome :=
  hostCommand 0x2A (resolveDetachBody ref) s

end Sys2Proof.Machine
end

