-- ==== Sys2Proof/Machine/ReadCommands.lean ====
section
/-! DEFINITION. The reads of beltpacks, the queue and the contexts (R6, R22, R90, R114) with their layouts (R183). -/

namespace Sys2Proof.Machine

/-! ### Read Beltpack (R6) -/

/-- The antenna and slot of a reference. -/
def placeBytes (x : AntennaNo × SlotNo) : List Byte := [byte x.1, byte x.2]

/-- The four bytes of a posted fault record (12.5). -/
def PostedFault.bytes (p : PostedFault) : List Byte :=
  [p.reported.code, p.current, optionByte p.target, byte p.cause.rank]

/-- The bytes of an optional field: none where it is absent. -/
def optionBytes {α : Type} (f : α → List Byte) : Option α → List Byte
  | none => []
  | some x => f x

/-- The answer of Read Beltpack (12.5). -/
def State.beltpackBytes (s : State) (e : EntryNo) (x : Entry) : List Byte :=
  [flagBits [x.survey.servingScore.isSome, x.serving.isSome, x.context.isSome, x.posted.isSome], byte e]
  ++ bytes3 x.id
  ++ [byte x.state.code, byte x.cls, groupByte x.groupA, groupByte x.groupB,
      flagBits [x.pinned, x.admission == .barred, s.queued e, x.settleTimer.isSome, x.lostTimer.isSome,
        x.windowExpired],
      x.current, byte x.survey.candidates.length]
  ++ x.survey.candidates.flatMap (fun k => [byte k.antenna, k.score])
  ++ optionBytes (fun v => [v]) x.survey.servingScore
  ++ optionBytes placeBytes x.serving
  ++ optionBytes (fun c => [byte c]) x.context
  ++ optionBytes PostedFault.bytes x.posted

/-- Read Beltpack changes nothing and is taken while a fault is posted. -/
def readBeltpackBody (ref : BeltpackRef) : State → CommandReply :=
  withBeltpack ref (some ()) false fun e x _ s => .answer (s.beltpackBytes e x) s

/-- READ_BELTPACK. -/
def execReadBeltpack (ref : BeltpackRef) (s : State) : StepOutcome := hostCommand 0x22 (readBeltpackBody ref) s

/-! ### Read Conditions (R22) -/

/-- The two sets, and then the accrued set emptied. -/
def readConditionsBody (ref : BeltpackRef) : State → CommandReply :=
  withBeltpack ref (some ()) false fun e x _ s =>
    .answer [x.current, x.accrued] (s.mapEntry e fun x => { x with accrued := 0 })

/-- READ_CONDITIONS. -/
def execReadConditions (ref : BeltpackRef) (s : State) : StepOutcome :=
  hostCommand 0x29 (readConditionsBody ref) s

/-! ### Time remaining (log entry 3) -/

/-- The time left on a timer that was started for `ms`, in steps rounded up: a free value from 1 to the whole time. -/
def stepsLeft (index ms step : Nat) : Nat := 1 + Config.freeRemaining index % max 1 ((ms + step - 1) / step)

/-! ### Read Queue (R90) -/

/-- One request's record (12.5). -/
def Request.bytes (r : Request) (index : Nat) : List Byte :=
  [flagBits [r.explicit.isSome, r.notBefore.isSome], byte r.entry, byte r.cause.rank, byte r.cls, byte r.retry,
   flagBits [r.displaced, r.notBefore.isSome]]
  ++ bytes3 r.exclusion
  ++ optionBytes (fun a => [byte a]) r.explicit
  ++ optionBytes (fun ms => [byte (stepsLeft index ms 10)]) r.notBefore

/-- The records of a list, each with its own free value. -/
def recordsFrom {α : Type} (f : α → Nat → List Byte) : Nat → List α → List Byte
  | _, [] => []
  | i, x :: xs => f x i ++ recordsFrom f (i + 1) xs

/-- Read Queue changes nothing of the part; the free values it used are gone. -/
def readQueueBody (s : State) : CommandReply :=
  .answer (byte s.queue.length :: recordsFrom Request.bytes s.freeIndex s.queue)
    { s with freeIndex := s.freeIndex + s.queue.length }

/-- READ_QUEUE. -/
def execReadQueue (s : State) : StepOutcome := hostCommand 0x30 readQueueBody s

/-! ### Read Transactions (R114) -/

/-- The two bytes of an awaited order (12.5): its trunk Type and its standing. -/
def awaitedBytes (w : Awaited) (st : Standing) : List Byte :=
  [w.type.code, match st with | .waiting => 0 | .pending => 1 | .inFlight => 2]

/-- The awaited order of a context with its standing, if there is one. -/
def State.awaitedOrder (s : State) (c : ContextNo) (x : Context) : Option (Awaited × Standing) :=
  match x.awaited with
  | none => none
  | some w => (s.standing c x w).map fun st => (w, st)

/-- The record of a busy context (12.5). -/
def State.contextBytes (s : State) (c : ContextNo) (x : Context) (index : Nat) : List Byte :=
  let w := s.awaitedOrder c x
  [flagBits [true, x.source.isSome, x.target.isSome, x.targetSlot.isSome, w.isSome, x.arrivalTimer.isSome],
   byte x.entry, byte x.cause.rank, byte x.cls, byte x.kind.code, byte x.phase.code, byte x.retry,
   flagBits [x.displaced, x.restartUsed]]
  ++ bytes3 x.tried ++ bytes3 x.exclusion
  ++ optionBytes placeBytes x.source
  ++ optionBytes (fun a => [byte a]) x.target
  ++ optionBytes (fun sl => [byte sl]) x.targetSlot
  ++ optionBytes (fun w => awaitedBytes w.1 w.2) w
  ++ optionBytes (fun ms => let n := stepsLeft index ms 4; [byte (n / 256), byte n]) x.arrivalTimer

/-- The record of a context: a free one's is its presence byte alone. -/
def State.contextRecord (s : State) (c : ContextNo) (index : Nat) : List Byte :=
  match s.ctx c with
  | none => [0]
  | some x => s.contextBytes c x index

/-- Read Transactions changes nothing of the part; the free values it used are gone. -/
def readTransactionsBody (s : State) : CommandReply :=
  .answer (byte s.busyContexts :: recordsFrom s.contextRecord s.freeIndex (List.finRange 8))
    { s with freeIndex := s.freeIndex + 8 }

/-- READ_TRANSACTIONS. -/
def execReadTransactions (s : State) : StepOutcome := hostCommand 0x31 readTransactionsBody s

end Sys2Proof.Machine
end

