-- ==== Sys2Proof/Machine/HostLineEvents.lean ====
section
/-! DEFINITION. Host frames byte by byte and as a whole: the command that a frame spells (12.3, R165), the receiver (R164), the end of a frame (R165, R166), the gap timer, and the end of a transmission (R168, R169). -/

namespace Sys2Proof.Machine

/-! ### The command of a frame (R165, 12.3) -/

/-- What the Code and Length tests of R165 find: no command, a Length that is not the command's, or the command. -/
inductive FrameTest where
  | unknown
  | badLength
  | command (body : State → CommandReply)

/-- A command without parameters. -/
def params0 (p : List Byte) (f : State → CommandReply) : FrameTest :=
  match p with
  | [] => .command f
  | _ => .badLength

/-- A command of one byte. -/
def params1 (p : List Byte) (f : Byte → State → CommandReply) : FrameTest :=
  match p with
  | [x] => .command (f x)
  | _ => .badLength

/-- A command of two bytes. -/
def params2 (p : List Byte) (f : Byte → Byte → State → CommandReply) : FrameTest :=
  match p with
  | [x, y] => .command (f x y)
  | _ => .badLength

/-- A command that names a beltpack and carries nothing else. -/
def params0Ref (p : List Byte) (f : BeltpackRef → State → CommandReply) : FrameTest :=
  match p with
  | [i] => .command (f (.compact i))
  | [x, y, z] => .command (f (.extended (id3 x y z)))
  | _ => .badLength

/-- A command that names a beltpack and carries one byte. -/
def params1Ref (p : List Byte) (f : BeltpackRef → Byte → State → CommandReply) : FrameTest :=
  match p with
  | [i, v] => .command (f (.compact i) v)
  | [x, y, z, v] => .command (f (.extended (id3 x y z)) v)
  | _ => .badLength

/-- A command that names a beltpack and carries two bytes. -/
def params2Ref (p : List Byte) (f : BeltpackRef → Byte → Byte → State → CommandReply) : FrameTest :=
  match p with
  | [i, v, w] => .command (f (.compact i) v w)
  | [x, y, z, v, w] => .command (f (.extended (id3 x y z)) v w)
  | _ => .badLength

/-- Set Antenna Service by its action byte (R34): an action outside the four is refused with BADVALUE. -/
def antennaServiceBody (antenna action : Byte) : State → CommandReply :=
  match action.toNat with
  | 0 => inServiceBody antenna
  | 1 => drainBody antenna
  | 2 => outOfServiceBody antenna
  | 3 => forceOutBody antenna
  | _ => fun _ => .refuse .badValue

/-- Resolve Fault by its action byte (R130): an action outside the four is refused with BADVALUE after the reference. -/
def resolveFaultBody (ref : BeltpackRef) (action : Byte) : State → CommandReply :=
  match action.toNat with
  | 0 => dismissBody ref
  | 1 => retryBody ref
  | 2 => nextBody ref
  | 3 => resolveDetachBody ref
  | _ => withBeltpack (α := Unit) ref none false fun _ _ _ _ => .refuse .badValue

/-- Inject Report by its kind byte (R161): a kind outside the four is refused with BADVALUE. -/
def injectReportBody (antenna kind : Byte) (fields : List Byte) : State → CommandReply :=
  match reportKind? kind with
  | some k => injectBody antenna k fields
  | none => fun _ => .refuse .badValue

/-- Inject Report of Length 4, 5 or 6. -/
def paramsInject (p : List Byte) : FrameTest :=
  match p with
  | [a, k, x, y] => .command (injectReportBody a k [x, y])
  | [a, k, x, y, z] => .command (injectReportBody a k [x, y, z])
  | [a, k, x, y, z, w] => .command (injectReportBody a k [x, y, z, w])
  | _ => .badLength

/-- Set Notice Mode of Length 3: the selection is two bytes, the most significant first (R180). -/
def paramsNoticeMode (p : List Byte) : FrameTest :=
  match p with
  | [m, x, y] => .command (setNoticeModeBody m (x ++ y))
  | _ => .badLength

/-- Enrol Beltpack of Length 6. -/
def paramsEnrol (p : List Byte) : FrameTest :=
  match p with
  | [x, y, z, c, a, b] => .command (enrolBody (id3 x y z) c a b)
  | _ => .badLength

/-- The Code and Length tests of R165 by the table of 12.3. -/
def commandOf (code : Byte) (p : List Byte) : FrameTest :=
  match code.toNat with
  | 0x01 => params0 p identifyBody
  | 0x02 => params0 p readDomainStatusBody
  | 0x03 => params1 p setLinkRateBody
  | 0x04 => paramsNoticeMode p
  | 0x05 => params0 p fetchNoticeBody
  | 0x08 => params2 p setPolicyItemBody
  | 0x09 => params0 p readPolicyBody
  | 0x10 => params0 p trunkStartBody
  | 0x11 => params0 p trunkStopBody
  | 0x12 => params1 p readAntennaBody
  | 0x13 => params2 p antennaServiceBody
  | 0x14 => params1 p clearAntennaFaultBody
  | 0x15 => params2 p setPortLoopbackBody
  | 0x16 => paramsInject p
  | 0x20 => paramsEnrol p
  | 0x21 => params0Ref p withdrawBody
  | 0x22 => params0Ref p readBeltpackBody
  | 0x23 => params2Ref p setGroupsBody
  | 0x24 => params1Ref p setClassBody
  | 0x25 => params1Ref p setPinBody
  | 0x26 => params1Ref p directHandoffBody
  | 0x27 => params0Ref p cancelBody
  | 0x28 => params0Ref p detachBody
  | 0x29 => params0Ref p readConditionsBody
  | 0x2A => params1Ref p resolveFaultBody
  | 0x2B => params1Ref p setAdmissionBody
  | 0x30 => params0 p readQueueBody
  | 0x31 => params0 p readTransactionsBody
  | _ => .unknown

/-! ### The end of a host frame (R165, R166) -/

/-- A frame with a good check and the Kind of a command has ended: UNKNOWN, LENGTH, or a complete command frame. -/
def State.endCommandFrame (s : State) (code : Byte) (payload : List Byte) : State :=
  match commandOf code payload with
  | .unknown => s.refuseHostFrame code .unknown
  | .badLength => s.refuseHostFrame code .length
  | .command body => s.runCommand code body

/-- A frame has ended at its Check byte: the tests of R165 in order. The last byte of the tail is the Check. -/
def State.endFrame (s : State) (kind code length : Byte) (tail : List Byte) : State :=
  if xorAll (kind :: code :: length :: tail) ≠ 0 then s.refuseHostFrame code .check
  else if kind ≠ 0x51 then s.refuseHostFrame code .unknown
  else s.endCommandFrame code tail.dropLast

/-- The refusal of a frame error (R165). -/
def errorRefusal : FrameError → RefusalCode
  | .check => .check
  | .unknown => .unknown
  | .length => .length

/-- RECEIVE_ERROR (R165): the frame is refused and the frame errors flag is set. -/
def execReceiveError (code : Byte) (error : FrameError) (s : State) : StepOutcome :=
  event (·.refuseHostFrame code (errorRefusal error)) s

/-- COMMAND_FRAME_LOST (R166): a complete command frame ends; while another command is in execution it is refused with
LOST (log entry 24 gives the other case). -/
def execCommandFrameLost (code : Byte) (payload : List Byte) (s : State) : StepOutcome :=
  event (·.endCommandFrame code payload) s

/-! ### The receiver and its gap timer (R164) -/

/-- The Code that a partly received frame has, or 0x00 where none was received. -/
def receivedCode : List Byte → Byte
  | _ :: code :: _ => code
  | _ => 0

/-- A byte taken inside a frame; the bytes are those after the sync byte, this one included. -/
def State.takeFrameByte (s : State) (bytes : List Byte) : State :=
  let gathered := s.mapLink fun l => { l with receiver := .inFrame bytes }
  match bytes with
  | kind :: code :: length :: tail =>
    if Config.hostPayloadLimit < length.toNat then s.refuseHostFrame code .length
    else if tail.length = length.toNat + 1 then s.endFrame kind code length tail
    else gathered
  | _ => gathered

/-- A byte taken by the host receiver. -/
def State.takeRxdByte (s : State) (b : Byte) : State :=
  match s.link.receiver with
  | .hunting => if b = 0xC5 then s.mapLink fun l => { l with receiver := .inFrame [] } else s
  | .inFrame bytes => s.takeFrameByte (bytes ++ [b])

/-- RXD_BYTE_TAKEN. -/
def execRxdByteTaken (b : Byte) (s : State) : StepOutcome := event (·.takeRxdByte b) s

/-- The gap timer expires: the frame is discarded and refused with GAP. -/
def State.expireGap (s : State) : State :=
  match s.link.receiver with
  | .hunting => s
  | .inFrame bytes => s.refuseHostFrame (receivedCode bytes) .gap

/-- GAP_TIMER_EXPIRY. -/
def execGapTimerExpiry (s : State) : StepOutcome := event State.expireGap s

/-! ### The end of a transmission (R168, R169) -/

/-- A frame that is partly received when the rate changes is refused with GAP (R169). -/
def HostLink.setRate (l : HostLink) (r : LinkRate) : HostLink :=
  let l := { l with rate := r }
  match l.receiver with
  | .hunting => l
  | .inFrame bytes => { l with receiver := .hunting }.refuseFrame (receivedCode bytes) .gap

/-- The last byte of a frame has been sent. If it was the reply of the command in execution, that command is over, and
the rate it set takes effect. -/
def HostLink.finishFrame (l : HostLink) : HostLink :=
  match l.transmitter with
  | none => l
  | some _ =>
    let l := { l with transmitter := none }
    match l.execution with
    | some x =>
      if x.begun then
        let l := { l with execution := none }
        match x.newRate with
        | none => l
        | some r => l.setRate r
      else l
    | none => l

/-- FRAME_SENT: the transmitter finishes and chooses the next frame. -/
def execFrameSent (s : State) : StepOutcome := event (fun s => (s.mapLink HostLink.finishFrame).wake) s

end Sys2Proof.Machine
end

