-- ==== Sys2Proof/Machine/TrunkEvents.lean ====
section
/-! DEFINITION. Events of the trunk lines and ports (chapter 10): frames and bytes from the units, the loopback responder, exchanges and waiting posters, probe and reply timers. -/

namespace Sys2Proof.Machine

/-! ### Frames from the line (R152) -/

/-- A frame on a port's line has ended: its receiver hunts (R152). -/
def State.endTrunkFrame (s : State) (a : AntennaNo) : State := s.mapPort a fun p => { p with receiver := .hunting }

/-- What arrives on a line is taken only while the port's loopback mode is Off (R40, R152; log entry 8). -/
def State.fromLine (s : State) (a : AntennaNo) (f : State → State) : State :=
  if (s.ant a).loopback = .off then f (s.endTrunkFrame a) else s

/-- A bad frame is discarded and the trunk errors flag is set (R152). -/
def State.takeBadFrame (s : State) (a : AntennaNo) : State := s.fromLine a State.latchTrunkErrors

/-- BAD_TRUNK_FRAME. -/
def execBadTrunkFrame (a : AntennaNo) (s : State) : StepOutcome := event (·.takeBadFrame a) s

/-- TRUNK_GAP_EXPIRY: a frame that the port is inside of is discarded as a bad frame. -/
def execTrunkGapExpiry (a : AntennaNo) (s : State) : StepOutcome :=
  event (fun s => match (s.port a).receiver with
    | .hunting => s
    | .inFrame _ => s.takeBadFrame a) s

/-- A good reply frame taken from the line. -/
def State.lineReply (s : State) (a : AntennaNo) (r : PortReply) : State := s.fromLine a (·.takeReply a r)

/-- A good report frame taken from the line. -/
def State.lineReport (s : State) (a : AntennaNo) (r : Report) : State := s.fromLine a (·.takeReport a r)

/-- STATUS. -/
def execStatus (a : AntennaNo) (mode faultFlag : Byte) (s : State) : StepOutcome :=
  event (·.lineReply a (.status mode faultFlag)) s

/-- ACK. -/
def execAck (a : AntennaNo) (orderType : Byte) (id : BeltpackId) (slot : Byte) (s : State) : StepOutcome :=
  event (·.lineReply a (.ack orderType id slot)) s

/-- REFUSE; the part does not act on the reason (R150). -/
def execRefuse (a : AntennaNo) (orderType : Byte) (id : BeltpackId) (slot _reason : Byte) (s : State) :
    StepOutcome :=
  event (·.lineReply a (.refuse orderType id slot)) s

/-- SIGHTING. -/
def execSighting (a : AntennaNo) (form : SightingForm) (s : State) : StepOutcome :=
  event (·.lineReport a (.sighting form)) s

/-- SEEK. -/
def execSeek (a : AntennaNo) (id : BeltpackId) (quality : Byte) (s : State) : StepOutcome :=
  event (·.lineReport a (.seek id quality)) s

/-- ARRIVAL. -/
def execArrival (a : AntennaNo) (id : BeltpackId) (slot : Byte) (s : State) : StepOutcome :=
  event (·.lineReport a (.arrival id slot)) s

/-- SIGN_OFF. -/
def execSignOff (a : AntennaNo) (id : BeltpackId) (s : State) : StepOutcome :=
  event (·.lineReport a (.signOff id)) s

/-! ### Bytes from the line (R152) -/

/-- A frame as it is taken from a line: a reply, a report, or a bad frame. -/
inductive TrunkFrame where
  | reply (r : PortReply)
  | report (r : Report)
  | bad
deriving DecidableEq, Repr

/-- A report's frame from its kind and payload; a payload of no length of the kind makes a bad frame. -/
def reportFrame (k : ReportKind) (p : List Byte) : TrunkFrame :=
  match report? k p with
  | some r => .report r
  | none => .bad

/-- A frame with a good residue, by its Type and payload (R150, R152). -/
def trunkFrameOf (type : Byte) (p : List Byte) : TrunkFrame :=
  match type.toNat, p with
  | 0x41, [m, f] => .reply (.status m f)
  | 0x42, [t, x, y, z, sl] => .reply (.ack t (id3 x y z) sl)
  | 0x43, [t, x, y, z, sl, _] => .reply (.refuse t (id3 x y z) sl)
  | _, p =>
    match reportKind? type with
    | some k => reportFrame k p
    | none => .bad

/-- A frame has ended at its second check byte (R151, R152): the residue first, then Type and Length. -/
def State.endReceivedFrame (s : State) (a : AntennaNo) (type length : Byte) (tail : List Byte) : State :=
  if crc (type :: length :: tail) ≠ 0 then s.takeBadFrame a
  else match trunkFrameOf type (tail.take length.toNat) with
    | .reply r => s.lineReply a r
    | .report r => s.lineReport a r
    | .bad => s.takeBadFrame a

/-- A byte taken inside a frame; the bytes are those after the lead byte, this one included. -/
def State.takeTrunkFrameByte (s : State) (a : AntennaNo) (bytes : List Byte) : State :=
  let gathered := s.mapPort a fun p => { p with receiver := .inFrame bytes }
  match bytes with
  | type :: length :: tail =>
    if Config.trunkPayloadLimit < length.toNat then s.takeBadFrame a
    else if tail.length = length.toNat + 2 then s.endReceivedFrame a type length tail
    else gathered
  | _ => gathered

/-- A byte taken by a port's receiver; a looped-back port takes none. -/
def State.takeTrunkByte (s : State) (a : AntennaNo) (b : Byte) : State :=
  if (s.ant a).loopback ≠ .off then s
  else match (s.port a).receiver with
    | .hunting => if b = 0xD3 then s.mapPort a fun p => { p with receiver := .inFrame [] } else s
    | .inFrame bytes => s.takeTrunkFrameByte a (bytes ++ [b])

/-- TRUNK_RX_BYTE. -/
def execTrunkRxByte (a : AntennaNo) (b : Byte) (s : State) : StepOutcome := event (·.takeTrunkByte a b) s

/-! ### Exchanges, the responder and the FIFO (R154, R155, R160) -/

/-- LOOPBACK_REPLY: the reply the responder has prepared is taken; without one nothing is. -/
def execLoopbackReply (a : AntennaNo) (s : State) : StepOutcome :=
  event (fun s => match (s.port a).inFlight.bind (·.prepared) with
    | some r => s.takeReply a r
    | none => s) s

/-- BEGIN_EXCHANGE: an idle port begins its next exchange, if it has one to begin. -/
def execBeginExchange (a : AntennaNo) (s : State) : StepOutcome := event (·.beginExchange a) s

/-- WAITING_POSTER_PLACED: the oldest waiting poster takes a free place of the FIFO, if there is one; an order placed at
an idle port is sent (R154). -/
def execWaitingPosterPlaced (a : AntennaNo) (s : State) : StepOutcome :=
  event (fun s => (s.mapPort a Port.placeWaiting).beginExchange a) s

/-! ### Probe and reply timers (R28, R30, R157) -/

/-- A probe timer expires (R28): it is started again, and a probe becomes due unless one is due or in flight. -/
def Port.expireProbeTimer (p : Port) (interval : Nat) : Port :=
  match p.probeTimer with
  | none => p
  | some _ => { p with probeTimer := some interval, probeDue := p.probeDue || !p.probeInFlight }

/-- PROBE_TIMER_EXPIRY. -/
def execProbeTimerExpiry (a : AntennaNo) (s : State) : StepOutcome :=
  event (fun s => (s.mapPort a (·.expireProbeTimer s.probeInterval)).beginExchange a) s

/-- Whether the reply timer of the exchange in flight can expire: no prepared reply comes before it (R160; log entry 9). -/
def Port.canTimeOut (p : Port) : Bool := (p.inFlight.bind (·.prepared)).isNone

/-- PROBE_MISS: the reply timer of a probe in flight expires. -/
def execProbeMiss (a : AntennaNo) (s : State) : StepOutcome :=
  event (fun s =>
    if (s.port a).probeInFlight && (s.port a).canTimeOut then (s.endExchange a).missProbe a else s) s

/-- ORDER_TIMEOUT: the reply timer of an order in flight expires. -/
def execOrderTimeout (a : AntennaNo) (s : State) : StepOutcome :=
  event (fun s => match (s.port a).orderInFlight with
    | some o => if (s.port a).canTimeOut then (s.endExchange a).timeOutOrder a o else s
    | none => s) s

end Sys2Proof.Machine
end

