-- ==== Sys2Proof/Machine/TimerEvents.lean ====
section
/-! DEFINITION. Expiries of the timers of contexts, entries, candidates and requests (R13, R14, R63, R86, R101), and the dispatch (R88). An expiry of a timer that does not run does not occur (log entry 2). -/

namespace Sys2Proof.Machine

/-- The arrival window has passed (R101): NOARRIVAL in the Arrival phase. -/
def State.expireArrivalTimer (s : State) (c : ContextNo) : State :=
  match s.ctx c with
  | none => s
  | some x =>
    if x.arrivalTimer.isSome && x.phase == .arrival then (s.dispose c Condition.noArrival.bit).settle else s

/-- ARRIVAL_TIMER_EXPIRY. -/
def execArrivalTimerExpiry (c : ContextNo) (s : State) : StepOutcome := event (·.expireArrivalTimer c) s

/-- The Lost window has run out (R13): the mark is set while a transaction is in flight, else the beltpack goes off air
and its request is removed. -/
def State.expireLostWindow (s : State) (e : EntryNo) : State :=
  match s.entry e with
  | none => s
  | some x =>
    if x.lostTimer.isNone then s
    else if x.context.isSome then s.mapEntry e fun x => { x with lostTimer := none, windowExpired := true }
    else (s.removeRequest e).detachWith e .window

/-- LOST_WINDOW_EXPIRY. -/
def execLostWindowExpiry (e : EntryNo) (s : State) : StepOutcome := event (·.expireLostWindow e) s

/-- SETTLE_TIMER_EXPIRY: the timer stops (R14). -/
def execSettleTimerExpiry (e : EntryNo) (s : State) : StepOutcome :=
  event (fun s => s.mapEntry e fun x => { x with settleTimer := none }) s

/-- CANDIDATE_LIFETIME_EXPIRY: the candidate leaves the list (R63). -/
def execCandidateLifetimeExpiry (e : EntryNo) (a : AntennaNo) (s : State) : StepOutcome :=
  event (fun s => s.mapSurvey e fun v => if (findCandidate a v.candidates).isSome then v.remove a else v) s

/-- The not-before time of the entry's request removed, if its timer runs (R86). -/
def Request.release (r : Request) (e : EntryNo) : Request :=
  if r.entry = e then { r with notBefore := none } else r

/-- NOT_BEFORE_EXPIRY: the request may be dispatched from then on. -/
def execNotBeforeExpiry (e : EntryNo) (s : State) : StepOutcome :=
  event (fun s => State.settle { s with queue := s.queue.map (·.release e) }) s

/-- DISPATCH: requests that may go are handed to free contexts (R88). -/
def execDispatch (s : State) : StepOutcome := event State.settle s

end Sys2Proof.Machine
end

