-- ==== Sys2Proof/Machine/Dispatch.lean ====
section
/-! DEFINITION. The meaning of each command and event: one arm for each constructor of Instr. -/

namespace Sys2Proof.Machine

def exec (i : Instr) (s : State) : Host.Outcome State Fault Refusal :=
  match i with
  | .reset => Sys2Proof.Machine.execReset s
  | .identify => Sys2Proof.Machine.execIdentify s
  | .readDomainStatus => Sys2Proof.Machine.execReadDomainStatus s
  | .setLinkRate rate => Sys2Proof.Machine.execSetLinkRate rate s
  | .setNoticeMode mode selection => Sys2Proof.Machine.execSetNoticeMode mode selection s
  | .fetchNotice => Sys2Proof.Machine.execFetchNotice s
  | .setPolicyItem item field => Sys2Proof.Machine.execSetPolicyItem item field s
  | .readPolicy => Sys2Proof.Machine.execReadPolicy s
  | .trunkStart => Sys2Proof.Machine.execTrunkStart s
  | .trunkStop => Sys2Proof.Machine.execTrunkStop s
  | .readAntenna antenna => Sys2Proof.Machine.execReadAntenna antenna s
  | .inServiceAction antenna => Sys2Proof.Machine.execInServiceAction antenna s
  | .drainAction antenna => Sys2Proof.Machine.execDrainAction antenna s
  | .outOfServiceAction antenna => Sys2Proof.Machine.execOutOfServiceAction antenna s
  | .forceOut antenna => Sys2Proof.Machine.execForceOut antenna s
  | .clearAntennaFault antenna => Sys2Proof.Machine.execClearAntennaFault antenna s
  | .setPortLoopback antenna mode => Sys2Proof.Machine.execSetPortLoopback antenna mode s
  | .injectSighting antenna fields => Sys2Proof.Machine.execInjectSighting antenna fields s
  | .injectSeek antenna fields => Sys2Proof.Machine.execInjectSeek antenna fields s
  | .injectArrival antenna fields => Sys2Proof.Machine.execInjectArrival antenna fields s
  | .injectSignOff antenna fields => Sys2Proof.Machine.execInjectSignOff antenna fields s
  | .enrolBeltpack id cls groupA groupB => Sys2Proof.Machine.execEnrolBeltpack id cls groupA groupB s
  | .withdrawBeltpack ref => Sys2Proof.Machine.execWithdrawBeltpack ref s
  | .readBeltpack ref => Sys2Proof.Machine.execReadBeltpack ref s
  | .setGroups ref groupA groupB => Sys2Proof.Machine.execSetGroups ref groupA groupB s
  | .setClass ref cls => Sys2Proof.Machine.execSetClass ref cls s
  | .setPin ref pin => Sys2Proof.Machine.execSetPin ref pin s
  | .directHandoff ref antenna => Sys2Proof.Machine.execDirectHandoff ref antenna s
  | .cancelRequest ref => Sys2Proof.Machine.execCancelRequest ref s
  | .detachBeltpack ref => Sys2Proof.Machine.execDetachBeltpack ref s
  | .readConditions ref => Sys2Proof.Machine.execReadConditions ref s
  | .resolveFaultDismiss ref => Sys2Proof.Machine.execResolveFaultDismiss ref s
  | .resolveFaultRetry ref => Sys2Proof.Machine.execResolveFaultRetry ref s
  | .resolveFaultNext ref => Sys2Proof.Machine.execResolveFaultNext ref s
  | .resolveFaultDetach ref => Sys2Proof.Machine.execResolveFaultDetach ref s
  | .setAdmission ref admission => Sys2Proof.Machine.execSetAdmission ref admission s
  | .readQueue => Sys2Proof.Machine.execReadQueue s
  | .readTransactions => Sys2Proof.Machine.execReadTransactions s
  | .receiveError code error => Sys2Proof.Machine.execReceiveError code error s
  | .gapTimerExpiry => Sys2Proof.Machine.execGapTimerExpiry s
  | .commandFrameLost code payload => Sys2Proof.Machine.execCommandFrameLost code payload s
  | .frameSent => Sys2Proof.Machine.execFrameSent s
  | .badTrunkFrame port => Sys2Proof.Machine.execBadTrunkFrame port s
  | .trunkGapExpiry port => Sys2Proof.Machine.execTrunkGapExpiry port s
  | .status port mode faultFlag => Sys2Proof.Machine.execStatus port mode faultFlag s
  | .ack port orderType id slot => Sys2Proof.Machine.execAck port orderType id slot s
  | .refuse port orderType id slot reason => Sys2Proof.Machine.execRefuse port orderType id slot reason s
  | .sighting port form => Sys2Proof.Machine.execSighting port form s
  | .seek port id quality => Sys2Proof.Machine.execSeek port id quality s
  | .arrival port id slot => Sys2Proof.Machine.execArrival port id slot s
  | .signOff port id => Sys2Proof.Machine.execSignOff port id s
  | .probeTimerExpiry port => Sys2Proof.Machine.execProbeTimerExpiry port s
  | .probeMiss port => Sys2Proof.Machine.execProbeMiss port s
  | .orderTimeout port => Sys2Proof.Machine.execOrderTimeout port s
  | .loopbackReply port => Sys2Proof.Machine.execLoopbackReply port s
  | .beginExchange port => Sys2Proof.Machine.execBeginExchange port s
  | .waitingPosterPlaced port => Sys2Proof.Machine.execWaitingPosterPlaced port s
  | .arrivalTimerExpiry context => Sys2Proof.Machine.execArrivalTimerExpiry context s
  | .lostWindowExpiry entry => Sys2Proof.Machine.execLostWindowExpiry entry s
  | .settleTimerExpiry entry => Sys2Proof.Machine.execSettleTimerExpiry entry s
  | .candidateLifetimeExpiry entry antenna => Sys2Proof.Machine.execCandidateLifetimeExpiry entry antenna s
  | .notBeforeExpiry entry => Sys2Proof.Machine.execNotBeforeExpiry entry s
  | .dispatch => Sys2Proof.Machine.execDispatch s
  | .rxdByteTaken value => Sys2Proof.Machine.execRxdByteTaken value s
  | .trunkRxByte port value => Sys2Proof.Machine.execTrunkRxByte port value s

end Sys2Proof.Machine
end

