-- ==== Sys2Proof/Safety.lean ====
section
/-! DEFINITION. What counts as a safe step, the words that the claims are stated in, and the invariants they speak of. -/

namespace Sys2Proof.Machine

/-- A step is safe when it has a next state. -/
def Safe (s : State) : Prop := ∃ t, step s = .next t

/-! ### Replies to host commands -/

/-- The Host Link's mode, selection, flags, accrued set and held notices are as they were. -/
structure LinkKept (l l' : HostLink) : Prop where
  mode : l'.mode = l.mode
  selection : l'.selection = l.selection
  flags : l'.flags = l.flags
  domainAccrued : l'.domainAccrued = l.domainAccrued
  notices : l'.notices = l.notices

/-- The reply `f` to the command `code` has been built, and an idle transmitter has begun it (R166 to R168). The idle
transmitter of `s` has made its own choice first, in `s.wake`. -/
structure Replied (s t : State) (code : Byte) (f : HostFrame) : Prop where
  built : t.link.execution.map (fun x => (x.code, x.reply)) = some (code, some f)
  sending : t.link.transmitter = some (s.wake.link.transmitter.getD f)
  receiver : t.link.receiver = .hunting
  replies : t.link.replies = s.wake.link.replies
  rate : t.link.rate = s.link.rate

/-- The command `code` has been refused, and nothing else has changed. -/
structure Refused (s t : State) (code : Byte) (r : RefusalCode) : Prop where
  reply : Replied s t code (refusalFrame code r)
  link : LinkKept s.wake.link t.link
  rest : t = { s with link := t.link }

/-- The command `code` has been answered, and nothing but the Host Link has changed. -/
structure Told (s t : State) (code : Byte) (p : List Byte) : Prop where
  reply : Replied s t code (answerFrame code p)
  link : LinkKept s.wake.link t.link
  rest : t = { s with link := t.link }

/-- Set Link Rate has taken a rate: its answer carries nothing, and a rate that is not in force waits on it (R169). -/
structure RateTaken (s t : State) (r : LinkRate) : Prop where
  told : Told s t 0x03 []
  newRate : t.link.execution.bind (·.newRate) = if r = s.link.rate then none else some r

/-- The field ranges of policy items 1 to 16 (12.4). -/
def policyRanges : List (Nat × Nat) :=
  [(0, 63), (0, 15), (0, 15), (0, 255), (0, 255), (0, 255), (0, 255), (2, 100), (1, 25), (1, 100), (1, 60), (0, 3),
   (1, 255), (0, 7), (0, 63), (0, 1)]

/-- The Host Link `l` while the command `code` is at work: its frame has ended, and its reply is not built (R166). -/
def HostLink.inCommand (l : HostLink) (code : Byte) : HostLink :=
  { l with receiver := .hunting, execution := some { code := code, ahead := l.replies.length } }

/-- The command `code` has been answered with `p`, and its own work leaves the notices and settings of `l`. -/
structure Done (s t : State) (code : Byte) (p : List Byte) (l : HostLink) : Prop where
  reply : Replied s t code (answerFrame code p)
  link : LinkKept l t.link

/-- How many numbers below `n` have a property. -/
abbrev countOf {n : Nat} (p : Fin n → Bool) : Nat := ((List.finRange n).filter p).length

/-! ### The change flag (R41) -/

/-- Whether the four fields that the change flag watches are equal in two records. -/
abbrev sameService (r r' : Antenna) : Prop :=
  r'.link = r.link ∧ r'.fault = r.fault ∧ r'.admin = r.admin ∧ r'.loopback = r.loopback

/-- The new record `r'` with the change flag that its change from `r` sets. -/
def Antenna.flagged (r r' : Antenna) : Antenna := if sameService r r' then r' else { r' with changed := true }

/-- The latched flag set, and the Antenna Change notice queued, where the change flag goes from clear to set. -/
def HostLink.reportChange (l : HostLink) (a : AntennaNo) (r r' : Antenna) : HostLink :=
  if sameService r r' ∨ r.changed = true then l
  else { l with flags := { l.flags with antennaChangesSeen := true } }.queueNotice
    (.antennaChange a r'.link r'.fault r'.admin r'.loopback)

/-- The state in which the record of antenna `a` has changed to `r'`, with the change flag and its notice (R41). -/
abbrev State.recordChanged (s : State) (a : AntennaNo) (r' : Antenna) : State :=
  { s with link := s.link.reportChange a (s.ant a) r', antennas := s.antennas.set a ((s.ant a).flagged r') }

/-- A command has changed the record of antenna `a` to `r'`, with the change flag and its notice, and nothing else; `more`
are the notices that follow. -/
structure AntennaUpdated (s t : State) (code : Byte) (p : List Byte) (a : AntennaNo) (r' : Antenna)
    (more : List Notice) : Prop where
  done : Done s t code p
    (more.foldl HostLink.queueNotice ((s.wake.link.inCommand code).reportChange a (s.ant a) r'))
  rest : t = { s with link := t.link, antennas := s.antennas.set a ((s.ant a).flagged r') }

/-- Every slot of an antenna is Free. -/
abbrev AllFree (s : State) (a : AntennaNo) : Prop := ∀ sl, s.slot a sl = .free

/-- An antenna has closed: it is not carrying, its slots are Free and its lanes are empty. -/
structure Closed (t : State) (a : AntennaNo) : Prop where
  carrying : (t.ant a).carrying = false
  slots : AllFree t a
  lanes : ∀ i, (t.ant a).lanes.get i = none

/-- No request can be dispatched: no context is free, or every queued request is held (R88). -/
abbrev Rested (s : State) : Prop := (∀ c, s.ctx c ≠ none) ∨ ∀ r ∈ s.queue, r.notBefore ≠ none

/-- The work of the command `code` comes to `u`, the dispatch follows (R88), and the command is answered with `p`. -/
structure DoneThen (s t : State) (code : Byte) (p : List Byte) (u : State) : Prop where
  reply : Replied s t code (answerFrame code p)
  link : LinkKept u.settle.link t.link
  rest : t = { u.settle with link := t.link }

/-- The state in which the command `code` does its work: its frame has ended, and nothing else has changed. -/
abbrev State.atWork (s : State) (code : Byte) : State := { s with link := s.wake.link.inCommand code }

/-! ### References to beltpacks (R3) -/

/-- A reference out of range: an index above 95, or an invalid ID. -/
def OutOfRange : BeltpackRef → Prop
  | .compact b => 96 ≤ b.toNat
  | .extended id => id = 0x000000 ∨ id = 0xFFFFFF

/-- The entry `x` at the index `e` is the one that a reference in range names (R1: no two entries have one ID). -/
def Named (s : State) (ref : BeltpackRef) (e : EntryNo) (x : Entry) : Prop :=
  s.entry e = some x ∧ ¬ OutOfRange ref ∧
    match ref with
    | .compact b => b = byte e
    | .extended id => x.id = id ∧ ∀ e' < e, ∀ y, s.entry e' = some y → y.id ≠ id

/-- Two group bytes are in range: each at most 63, and not both present and equal. -/
abbrev groupsInRange (a b : Byte) : Prop := a.toNat ≤ 63 ∧ b.toNat ≤ 63 ∧ ¬ (a ≠ 0 ∧ a = b)

/-- The host commands that name a beltpack: the reference, the code, whether the values are in range, and whether a posted
fault refuses the command. -/
def beltpackCommand : Instr → Option (BeltpackRef × Byte × Prop × Bool)
  | .withdrawBeltpack r => some (r, 0x21, True, true)
  | .readBeltpack r => some (r, 0x22, True, false)
  | .setGroups r a b => some (r, 0x23, groupsInRange a b, true)
  | .setClass r k => some (r, 0x24, k.toNat ≤ 3, true)
  | .setPin r v => some (r, 0x25, v.toNat ≤ 1, true)
  | .directHandoff r a => some (r, 0x26, a.toNat ≤ 23, true)
  | .cancelRequest r => some (r, 0x27, True, true)
  | .detachBeltpack r => some (r, 0x28, True, true)
  | .readConditions r => some (r, 0x29, True, false)
  | .resolveFaultDismiss r | .resolveFaultRetry r | .resolveFaultNext r | .resolveFaultDetach r =>
    some (r, 0x2A, True, false)
  | .setAdmission r v => some (r, 0x2B, v.toNat ≤ 1, false)
  | _ => none

/-- The beltpack holds a Reserved or Releasing slot at some antenna. -/
abbrev Unsettled (s : State) (e : EntryNo) : Prop := ∃ a sl, s.slot a sl = .reserved e ∨ s.slot a sl = .releasing e

/-- The entry `e` has a queued request (R2). -/
abbrev HasRequest (s : State) (e : EntryNo) : Prop := ∃ r ∈ s.queue, r.entry = e

/-- A raise from the host finds no place (R84). -/
abbrev QueueFullFor (s : State) (e : EntryNo) : Prop := ¬ HasRequest s e ∧ 16 ≤ s.queue.length

/-! ### Lanes (R45) -/

/-- The users that a lane table counts for a group. -/
def laneUsers (t : Lanes) (g : Group) : Nat :=
  ((List.finRange 4).map fun i => match t.get i with
    | none => 0
    | some l => if l.group = g then l.users else 0).sum

/-- The lanes of an antenna keep to R45: no group has two lanes, and no lane has a count of zero. -/
def LanesApart (t : Lanes) : Prop :=
  (∀ i l, t.get i = some l → 0 < l.users) ∧
  ∀ i j l m, t.get i = some l → t.get j = some m → l.group = m.group → i = j

/-- No lane carries the group. -/
abbrev NoLaneFor (t : Lanes) (g : Group) : Prop := ∀ i l, t.get i = some l → l.group ≠ g

/-! ### Records of the reads (12.5) -/

/-- The presence bits and flag bits of a record: the bits that are set. -/
def bitsByte (bs : List (Nat × Bool)) : Byte := (bs.map fun p => if p.2 then BitVec.twoPow 8 p.1 else 0).foldl (· ||| ·) 0

/-- The answer of Read Beltpack. -/
def beltpackAnswer (s : State) (e : EntryNo) (x : Entry) : List Byte :=
  [bitsByte [(0, x.survey.servingScore.isSome), (1, x.serving.isSome), (2, x.context.isSome), (3, x.posted.isSome)],
   byte e, x.id.extractLsb' 16 8, x.id.extractLsb' 8 8, x.id.extractLsb' 0 8,
   match x.state with | .unattached => 0 | .attaching => 1 | .served => 2 | .moving => 3 | .lost => 4,
   byte x.cls, match x.groupA with | none => 0 | some g => byte g, match x.groupB with | none => 0 | some g => byte g,
   bitsByte [(0, x.pinned), (1, x.admission = .barred), (2, HasRequest s e), (3, x.settleTimer.isSome),
     (4, x.lostTimer.isSome), (5, x.windowExpired)],
   x.current, byte x.survey.candidates.length]
  ++ x.survey.candidates.flatMap (fun k => [byte k.antenna, k.score])
  ++ (match x.survey.servingScore with | none => [] | some v => [v])
  ++ (match x.serving with | none => [] | some (a, sl) => [byte a, byte sl])
  ++ (match x.context with | none => [] | some c => [byte c])
  ++ (match x.posted with
      | none => []
      | some p => [p.reported.code, p.current, match p.target with | none => 0xFF | some a => byte a, byte p.cause.rank])

/-- One record of Read Queue, with the steps left on its not-before timer. -/
def queueRecord (r : Request) (left : Nat) : List Byte :=
  [bitsByte [(0, r.explicit.isSome), (1, r.notBefore.isSome)], byte r.entry, byte r.cause.rank, byte r.cls, byte r.retry,
   bitsByte [(0, r.displaced), (1, r.notBefore.isSome)],
   r.exclusion.extractLsb' 16 8, r.exclusion.extractLsb' 8 8, r.exclusion.extractLsb' 0 8]
  ++ (match r.explicit with | none => [] | some a => [byte a])
  ++ (match r.notBefore with | none => [] | some _ => [byte left])

/-- One record of Read Transactions, with the steps left on its arrival timer. -/
def contextAnswer (s : State) (c : ContextNo) (left : Nat) : List Byte :=
  match s.ctx c with
  | none => [0]
  | some x =>
    let order := x.awaited.bind fun w => (s.standing c x w).map fun st => (w.type, st)
    [bitsByte [(0, true), (1, x.source.isSome), (2, x.target.isSome), (3, x.targetSlot.isSome), (4, order.isSome),
       (5, x.arrivalTimer.isSome)],
     byte x.entry, byte x.cause.rank, byte x.cls,
     match x.kind with | .move => 0 | .summon => 1 | .attach => 2,
     match x.phase with | .reserve => 0 | .cue => 1 | .summon => 2 | .arrival => 3 | .release => 4,
     byte x.retry, bitsByte [(0, x.displaced), (1, x.restartUsed)],
     x.tried.extractLsb' 16 8, x.tried.extractLsb' 8 8, x.tried.extractLsb' 0 8,
     x.exclusion.extractLsb' 16 8, x.exclusion.extractLsb' 8 8, x.exclusion.extractLsb' 0 8]
    ++ (match x.source with | none => [] | some (a, sl) => [byte a, byte sl])
    ++ (match x.target with | none => [] | some a => [byte a])
    ++ (match x.targetSlot with | none => [] | some sl => [byte sl])
    ++ (match order with
        | none => []
        | some (type, st) =>
          [match type with | .reserve => 2 | .cue => 3 | .summon => 4 | .release => 5,
           match st with | .waiting => 0 | .pending => 1 | .inFlight => 2])
    ++ (match x.arrivalTimer with | none => [] | some _ => [byte (left / 256), byte left])

/-! ### What the part sends (12.2, 12.5, 12.6) -/

/-- The three bytes of an ID (R180). -/
def idBytes (id : BeltpackId) : List Byte := [id.extractLsb' 16 8, id.extractLsb' 8 8, id.extractLsb' 0 8]

/-- A group in a Reserve; an absent one is 0 (R150). -/
def groupField (g : Option Group) : Byte := match g with | none => 0 | some g => byte g

/-- A number of a notice that may be absent, which is then 0xFF (12.5). -/
def optionalField {n : Nat} (v : Option (Fin n)) : Byte := match v with | none => 0xFF | some v => byte v

/-- The code of a condition (12.6). -/
def conditionField : Condition → Byte
  | .srcLost => 1 | .tgtLost => 2 | .orderLate => 3 | .noArrival => 4
  | .refused => 5 | .noLane => 6 | .noSlot => 7 | .noTarget => 8

/-- The code of a cause (12.6). -/
def causeField : Cause → Byte
  | .evacuation => 0 | .attach => 1 | .directed => 2 | .drain => 3 | .evict => 4 | .fade => 5 | .survey => 6

/-- The code of a refusal (12.6). -/
def refusalField : RefusalCode → Byte
  | .check => 0x01 | .length => 0x02 | .gap => 0x03 | .lost => 0x04 | .unknown => 0x05 | .badValue => 0x10
  | .noEntry => 0x11 | .rosterFull => 0x12 | .duplicate => 0x13 | .inTransit => 0x14 | .posted => 0x15
  | .queueFull => 0x16 | .tooLate => 0x17 | .notOpen => 0x18 | .noLane => 0x19 | .state => 0x1A

/-- The code and payload of a notice (12.5). -/
def noticeLayout : Notice → Byte × List Byte
  | .started => (0x80, [0x0E, 0x5A, 0x01, 0x01, 0xA0, 0x01, 24, 8, 4, 96, 16, 8, 32, 8])
  | .antennaChange a l f m b =>
    (0x81, [byte a, match l with | .absent => 0 | .listenOnly => 1 | .serveCapable => 2, if f then 1 else 0,
      match m with | .inService => 0 | .draining => 1 | .outOfService => 2,
      match b with | .off => 0 | .ackAll => 1 | .refuseReserves => 2 | .silent => 3])
  | .handoffDone e id cause kind source target slot =>
    (0x82, [byte e] ++ idBytes id ++ [causeField cause, match kind with | .move => 0 | .summon => 1 | .attach => 2,
      optionalField source, optionalField target, optionalField slot])
  | .handoffHeld e id k current target cause =>
    (0x83, [byte e] ++ idBytes id ++ [conditionField k, current, optionalField target, causeField cause])
  | .conditionReport e id k current target d =>
    (0x84, [byte e] ++ idBytes id ++ [conditionField k, current, optionalField target,
      match d with | .ended => 0 | .next => 1 | .reEnter => 2 | .convert => 3])
  | .attached e id a sl => (0x85, [byte e] ++ idBytes id ++ [byte a, byte sl])
  | .lost e id a => (0x86, [byte e] ++ idBytes id ++ [optionalField a])
  | .unattached e id r => (0x87, [byte e] ++ idBytes id ++ [match r with | .window => 0 | .signOff => 1 | .detach => 2])
  | .drainComplete a how => (0x88, [byte a, match how with | .moves => 0 | .closing => 1])
  | .strangerHeard id a q => (0x89, idBytes id ++ [byte a, q])
  | .trunkStopped n m => (0x8A, [byte n, byte m])

/-- The Type and payload of the frame that carries a probe or an order (12.2). -/
def sentLayout : Sent → Byte × List Byte
  | .probe => (0x01, [])
  | .order o =>
    match o.body with
    | .reserve a b => (0x02, idBytes o.id ++ [byte o.slot, groupField a, groupField b])
    | .cue target => (0x03, idBytes o.id ++ [byte target, byte o.slot])
    | .summon => (0x04, idBytes o.id ++ [byte o.slot])
    | .release => (0x05, idBytes o.id ++ [byte o.slot])

/-! ### Frames on the Host Link -/

/-- The frame `f` refuses a host frame that has ended without being executed (R165, R166): it waits at the end of the reply
list or, at an idle transmitter, is begun; with 16 refusals held it is lost. `latch` says whether the refusal by itself
sets the frame errors flag. -/
structure FrameRefused (s t : State) (f : HostFrame) (latch : Bool) : Prop where
  rest : t = { s with link := t.link }
  receiver : t.link.receiver = .hunting
  flags : t.link.flags = { s.link.flags with
    frameErrors := s.link.flags.frameErrors || latch || decide (16 ≤ s.wake.link.replies.length) }
  execution : t.link.execution = s.wake.link.execution
  notices : t.link.notices = s.wake.link.notices
  settings : t.link.rate = s.link.rate ∧ t.link.mode = s.link.mode ∧ t.link.selection = s.link.selection ∧
    t.link.domainAccrued = s.link.domainAccrued
  placed : s.wake.link.replies.length < 16 →
    if s.wake.link.transmitter = none then t.link.transmitter = some f ∧ t.link.replies = []
    else t.link.transmitter = s.wake.link.transmitter ∧ t.link.replies = s.wake.link.replies ++ [f]
  lost : 16 ≤ s.wake.link.replies.length →
    t.link.transmitter = s.wake.link.transmitter ∧ t.link.replies = s.wake.link.replies

/-- Commands one after another. -/
def execAll : List Instr → State → StepOutcome
  | [], s => .next s
  | i :: is, s =>
    match exec i s with
    | .next t => execAll is t
    | .fault x => .fault x
    | .refused x => .refused x

/-- The bytes of a reference (R163): one for an index, three for an ID. -/
def refBytes : BeltpackRef → List Byte
  | .compact b => [b]
  | .extended id => [id.extractLsb' 16 8, id.extractLsb' 8 8, id.extractLsb' 0 8]

/-- The code and payload of the command frame that a host command's row stands for (12.3). -/
def hostFrame : Instr → Option (Byte × List Byte)
  | .identify => some (0x01, [])
  | .readDomainStatus => some (0x02, [])
  | .setLinkRate r => some (0x03, [r])
  | .setNoticeMode m sel => some (0x04, [m, sel.extractLsb' 8 8, sel.extractLsb' 0 8])
  | .fetchNotice => some (0x05, [])
  | .setPolicyItem i f => some (0x08, [i, f])
  | .readPolicy => some (0x09, [])
  | .trunkStart => some (0x10, [])
  | .trunkStop => some (0x11, [])
  | .readAntenna a => some (0x12, [a])
  | .inServiceAction a => some (0x13, [a, 0])
  | .drainAction a => some (0x13, [a, 1])
  | .outOfServiceAction a => some (0x13, [a, 2])
  | .forceOut a => some (0x13, [a, 3])
  | .clearAntennaFault a => some (0x14, [a])
  | .setPortLoopback a m => some (0x15, [a, m])
  | .injectSighting a p => some (0x16, [a, 0x44] ++ p)
  | .injectSeek a p => some (0x16, [a, 0x45] ++ p)
  | .injectArrival a p => some (0x16, [a, 0x46] ++ p)
  | .injectSignOff a p => some (0x16, [a, 0x47] ++ p)
  | .enrolBeltpack id c a b => some (0x20, refBytes (.extended id) ++ [c, a, b])
  | .withdrawBeltpack r => some (0x21, refBytes r)
  | .readBeltpack r => some (0x22, refBytes r)
  | .setGroups r a b => some (0x23, refBytes r ++ [a, b])
  | .setClass r k => some (0x24, refBytes r ++ [k])
  | .setPin r v => some (0x25, refBytes r ++ [v])
  | .directHandoff r a => some (0x26, refBytes r ++ [a])
  | .cancelRequest r => some (0x27, refBytes r)
  | .detachBeltpack r => some (0x28, refBytes r)
  | .readConditions r => some (0x29, refBytes r)
  | .resolveFaultDismiss r => some (0x2A, refBytes r ++ [0])
  | .resolveFaultRetry r => some (0x2A, refBytes r ++ [1])
  | .resolveFaultNext r => some (0x2A, refBytes r ++ [2])
  | .resolveFaultDetach r => some (0x2A, refBytes r ++ [3])
  | .setAdmission r v => some (0x2B, refBytes r ++ [v])
  | .readQueue => some (0x30, [])
  | .readTransactions => some (0x31, [])
  | .reset | .receiveError _ _ | .gapTimerExpiry | .commandFrameLost _ _ | .frameSent | .rxdByteTaken _
  | .badTrunkFrame _ | .trunkGapExpiry _ | .status _ _ _ | .ack _ _ _ _ | .refuse _ _ _ _ _ | .sighting _ _ | .seek _ _ _
  | .arrival _ _ _ | .signOff _ _ | .probeTimerExpiry _ | .probeMiss _ | .orderTimeout _ | .loopbackReply _
  | .beginExchange _ | .waitingPosterPlaced _ | .arrivalTimerExpiry _ | .lostWindowExpiry _ | .settleTimerExpiry _
  | .candidateLifetimeExpiry _ _ | .notBeforeExpiry _ | .dispatch | .trunkRxByte _ _ => none

/-! ### Frames on the trunk lines -/

/-- The polynomial x^16 + x^12 + x^5 + 1 as a shift register that takes one bit, low-order bit first (R151). -/
def crcBit (v : BitVec 16) (b : Bool) : BitVec 16 := (v >>> 1) ^^^ (if v.getLsbD 0 != b then 0x8408 else 0)

/-- The antenna, Type and payload of the trunk frame that a row stands for (12.2). -/
def lineFrame : Instr → Option (AntennaNo × Byte × List Byte)
  | .status a m f => some (a, 0x41, [m, f])
  | .ack a t id sl => some (a, 0x42, [t] ++ refBytes (.extended id) ++ [sl])
  | .refuse a t id sl r => some (a, 0x43, [t] ++ refBytes (.extended id) ++ [sl, r])
  | .sighting a (.compact sl q) => some (a, 0x44, [sl, q])
  | .sighting a (.extended id q) => some (a, 0x44, refBytes (.extended id) ++ [q])
  | .seek a id q => some (a, 0x45, refBytes (.extended id) ++ [q])
  | .arrival a id sl => some (a, 0x46, refBytes (.extended id) ++ [sl])
  | .signOff a id => some (a, 0x47, refBytes (.extended id))
  | _ => none

/-- The lengths of the frames that a unit may send, by their Type (12.2); empty for any other Type. -/
def lineLengths (type : Byte) : List Nat :=
  match type.toNat with
  | 0x41 => [2]
  | 0x42 => [5]
  | 0x43 => [6]
  | 0x44 => [2, 4]
  | 0x45 | 0x46 => [4]
  | 0x47 => [3]
  | _ => []

/-- The rows that the trunk lines, the ports, the timers and the dispatch bring, and not the host. -/
def isEvent : Instr → Bool
  | .badTrunkFrame _ | .trunkGapExpiry _ | .status _ _ _ | .ack _ _ _ _ | .refuse _ _ _ _ _ | .sighting _ _ | .seek _ _ _
  | .arrival _ _ _ | .signOff _ _ | .probeTimerExpiry _ | .probeMiss _ | .orderTimeout _ | .loopbackReply _
  | .beginExchange _ | .waitingPosterPlaced _ | .arrivalTimerExpiry _ | .lostWindowExpiry _ | .settleTimerExpiry _
  | .candidateLifetimeExpiry _ _ | .notBeforeExpiry _ | .dispatch | .trunkRxByte _ _ => true
  | .reset | .identify | .readDomainStatus | .setLinkRate _ | .setNoticeMode _ _ | .fetchNotice | .setPolicyItem _ _
  | .readPolicy | .trunkStart | .trunkStop | .readAntenna _ | .inServiceAction _ | .drainAction _ | .outOfServiceAction _
  | .forceOut _ | .clearAntennaFault _ | .setPortLoopback _ _ | .injectSighting _ _ | .injectSeek _ _
  | .injectArrival _ _ | .injectSignOff _ _ | .enrolBeltpack _ _ _ _ | .withdrawBeltpack _ | .readBeltpack _
  | .setGroups _ _ _ | .setClass _ _ | .setPin _ _ | .directHandoff _ _ | .cancelRequest _ | .detachBeltpack _
  | .readConditions _ | .resolveFaultDismiss _ | .resolveFaultRetry _ | .resolveFaultNext _ | .resolveFaultDetach _
  | .setAdmission _ _ | .readQueue | .readTransactions | .receiveError _ _ | .gapTimerExpiry | .commandFrameLost _ _
  | .frameSent | .rxdByteTaken _ => false

/-- A frame has been taken from the line of a port: its receiver hunts. -/
abbrev State.heard (s : State) (a : AntennaNo) : State :=
  { s with link := s.wake.link, ports := s.ports.set a { s.port a with receiver := .hunting } }

/-- The stray flag latched, and nothing else changed. -/
abbrev State.strayed (s : State) : State := { s with link := { s.link with flags := { s.link.flags with stray := true } } }

/-- The report that a row brings from the line. -/
def lineReport : Instr → Option (AntennaNo × Report)
  | .sighting a f => some (a, .sighting f)
  | .seek a id q => some (a, .seek id q)
  | .arrival a id sl => some (a, .arrival id sl)
  | .signOff a id => some (a, .signOff id)
  | _ => none

/-- The antenna byte of an injected report, and the report, if its fields have a length of its kind (R161, 12.2). -/
def injected : Instr → Option (Byte × Option Report)
  | .injectSighting b [sl, q] => some (b, some (.sighting (.compact sl q)))
  | .injectSighting b [x, y, z, q] => some (b, some (.sighting (.extended (x ++ y ++ z) q)))
  | .injectSeek b [x, y, z, q] => some (b, some (.seek (x ++ y ++ z) q))
  | .injectArrival b [x, y, z, sl] => some (b, some (.arrival (x ++ y ++ z) sl))
  | .injectSignOff b [x, y, z] => some (b, some (.signOff (x ++ y ++ z)))
  | .injectSighting b _ | .injectSeek b _ | .injectArrival b _ | .injectSignOff b _ => some (b, none)
  | _ => none

/-- A delivered report is taken by its block (R158). -/
def Report.taken (r : Report) (a : AntennaNo) (s : State) : State :=
  match r with
  | .sighting f => s.takeSighting a f
  | .seek id q => s.takeSeek a id q
  | .arrival id sl => s.takeArrival a id sl
  | .signOff id => s.takeSignOff id

/-- The Survey Unit's order of candidates (R62): higher score, and of equal scores the lower antenna. -/
abbrev Outranks (x y : Candidate) : Prop := y.score < x.score ∨ x.score = y.score ∧ x.antenna < y.antenna

/-- A candidate list as R62 keeps it: at most 4, each antenna once, in order. -/
structure ListKept (l : List Candidate) : Prop where
  length : l.length ≤ 4
  antennas : l.Pairwise fun x y => x.antenna ≠ y.antenna
  order : l.Pairwise Outranks

/-- The order of requests in the queue (R80): urgency, class, cause rank, entry order. -/
def KeyBefore (x y : Request) : Prop :=
  let u (r : Request) : Nat := if r.cause = .evacuation then 0 else 1
  u x < u y ∨ u x = u y ∧ (x.cls < y.cls ∨ x.cls = y.cls ∧ (x.cause.rank < y.cause.rank ∨
    x.cause.rank = y.cause.rank ∧ x.order < y.order))

/-- A compact or extended Sighting of quality `q` at antenna `a` names the entry `x` at the index `e` (R58). -/
def Sights (s : State) (a : AntennaNo) (f : SightingForm) (q : Byte) (e : EntryNo) (x : Entry) : Prop :=
  s.entry e = some x ∧
    match f with
    | .compact slot q' => q' = q ∧ ∃ sl : SlotNo, slot = byte sl ∧
        (s.slot a sl = .reserved e ∨ s.slot a sl = .occupied e ∨ s.slot a sl = .releasing e)
    | .extended id q' => q' = q ∧ x.id = id ∧ ∀ e' < e, ∀ y, s.entry e' = some y → y.id ≠ id

/-- The entry `x` at the index `e` is the one with an ID (R1). -/
def HasId (s : State) (id : BeltpackId) (e : EntryNo) (x : Entry) : Prop :=
  s.entry e = some x ∧ x.id = id ∧ ∀ e' < e, ∀ y, s.entry e' = some y → y.id ≠ id

/-- No entry has the ID. -/
abbrev UnknownId (s : State) (id : BeltpackId) : Prop := ∀ e x, s.entry e = some x → x.id ≠ id

/-- The reply that a port's internal responder prepares for an exchange (R160). -/
def preparedReply (mode : LoopbackMode) : Sent → Option PortReply
  | .probe => if mode = .off then none else some (.status 0x01 0x00)
  | .order o =>
    match mode, o.body with
    | .off, _ | .silent, _ => none
    | .refuseReserves, .reserve _ _ => some (.refuse 0x02 o.id (byte o.slot))
    | _, .reserve _ _ => some (.ack 0x02 o.id (byte o.slot))
    | _, .cue _ => some (.ack 0x03 o.id (byte o.slot))
    | _, .summon => some (.ack 0x04 o.id (byte o.slot))
    | _, .release => some (.ack 0x05 o.id (byte o.slot))

/-- An Ack or a Refuse carries the order's type, ID and slot (R156, R181). -/
def Matches (o : Order) (orderType : Byte) (id : BeltpackId) (slot : Byte) : Prop :=
  orderType = (match o.body with | .reserve _ _ => 0x02 | .cue _ => 0x03 | .summon => 0x04 | .release => 0x05) ∧
    id = o.id ∧ slot = byte o.slot

/-- One event has changed the record of antenna `a` from that of `h` to `r'` (R26, R41). If it ends carrying, the closing
sweep follows, and `late` names the context whose order's timeout caused it (R32, R134); then the port goes on to its next
exchange (R154), and the dispatch follows. After a sweep the antenna is closed, with its link, marker and counts as in `r'`
and a drain completed (R141). -/
def AntennaEvent (h t : State) (a : AntennaNo) (late : Option ContextNo) (r' : Antenna) : Prop :=
  let closes : Prop := (h.ant a).carrying = true ∧ r'.carrying = false
  (closes → t = (((h.recordChanged a r').closingSweep a late).beginExchange a).settle ∧
    Closed t a ∧ (t.ant a).link = r'.link ∧ (t.ant a).fault = r'.fault ∧ (t.ant a).changed = true ∧
    (t.ant a).probeMisses = r'.probeMisses ∧ (t.ant a).orderMisses = r'.orderMisses ∧
    (t.ant a).admin = (if r'.admin = .draining then .outOfService else r'.admin)) ∧
  (¬ closes → t = ((h.recordChanged a r').beginExchange a).settle)

/-- The exchange in flight at a port has ended. -/
abbrev State.ended (s : State) (a : AntennaNo) : State :=
  { s with ports := s.ports.set a { s.port a with inFlight := none } }

/-- A reply is taken at a port in `h` (R29, R156): by the exchange it matches, or as a stray. -/
def ReplyTaken (h t : State) (a : AntennaNo) (r : PortReply) : Prop :=
  match r, (h.port a).inFlight.map Exchange.sent with
  | .status mode flag, some .probe =>
    if mode = 0x01 ∨ mode = 0x02 then
      AntennaEvent (h.ended a) t a none
        { h.ant a with probeMisses := 0, link := if mode = 0x01 then .serveCapable else .listenOnly,
                       fault := (h.ant a).fault || flag ≠ 0 }
    else t = h.strayed
  | .ack type id sl, some (.order o) =>
    (Matches o type id sl →
      t = ((({ h.ended a with antennas := h.antennas.set a { h.ant a with orderMisses := 0 } } : State).giveOutcome a o
        .acked).beginExchange a).settle) ∧
    (¬ Matches o type id sl → t = h.strayed)
  | .refuse type id sl, some (.order o) =>
    (Matches o type id sl →
      t = ((({ h.ended a with antennas := h.antennas.set a { h.ant a with orderMisses := 0 } } : State).giveOutcome a o
        .refused).beginExchange a).settle) ∧
    (¬ Matches o type id sl → t = h.strayed)
  | _, _ => t = h.strayed

/-! ### The stores in order -/

/-- The Host Link keeps its bounds (R162, R170, R171), and a command in execution has its reply and a busy transmitter. -/
structure LinkInOrder (l : HostLink) : Prop where
  notices : l.notices.length ≤ 32
  replies : l.replies.length ≤ 16
  held : l.selection.getLsbD 3 = true
  eleven : l.selection.toNat < 2 ^ 11
  busy : ∀ x, l.execution = some x → x.reply ≠ none ∧ l.transmitter ≠ none

/-- An entry keeps to R1, R2 and R57, and its candidate list to R62. -/
structure EntryInOrder (x : Entry) : Prop where
  id : x.id ≠ 0x000000 ∧ x.id ≠ 0xFFFFFF
  groups : x.groupA ≠ some 0 ∧ x.groupB ≠ some 0 ∧ (x.groupA = none ∨ x.groupA ≠ x.groupB)
  serving : x.serving.isSome = true ↔ x.state = .served ∨ x.state = .moving
  candidates : ListKept x.survey.candidates
  lead : x.survey.leadCount ≤ 16

/-- The queue keeps to R78 and R80: at most 16, in key order, the entry orders distinct and past. -/
structure QueueInOrder (s : State) : Prop where
  length : s.queue.length ≤ 16
  key : s.queue.Pairwise KeyBefore
  orders : s.queue.Pairwise fun x y => x.order ≠ y.order
  past : ∀ r ∈ s.queue, r.order < s.nextOrder

/-- A port's FIFO holds at most 6 orders, and it is full while a poster waits (R155). -/
structure PortInOrder (p : Port) : Prop where
  fifo : p.fifo.length ≤ 6
  waiting : p.waiting ≠ [] → p.fifo.length = 6

/-- The stores of the part are in order. -/
structure InOrder (s : State) : Prop where
  link : LinkInOrder s.link
  policy : ∀ i : Fin 16, ∀ lo hi, policyRanges[i.val]? = some (lo, hi) →
    lo ≤ (s.policy.get i).toNat ∧ (s.policy.get i).toNat ≤ hi
  entries : ∀ e x, s.entry e = some x → EntryInOrder x
  ids : ∀ e e' x y, s.entry e = some x → s.entry e' = some y → x.id = y.id → e = e'
  strangers : s.strangers.length ≤ 8 ∧ s.strangers.Nodup
  queue : QueueInOrder s
  antennas : ∀ a, (s.ant a).probeMisses ≤ 3 ∧ (s.ant a).orderMisses ≤ 2 ∧ LanesApart (s.ant a).lanes
  ports : ∀ a, PortInOrder (s.port a)
  stopped : s.running = false → ∀ a, (s.ant a).link = .absent ∧ (s.port a).inFlight = none ∧
    (s.port a).probeDue = false ∧ (s.port a).probeTimer = none

/-! ### Slots, transactions and requests agree -/

/-- The beltpack `e` holds the slot, in any state but Free (R43). -/
abbrev Holds (s : State) (a : AntennaNo) (sl : SlotNo) (e : EntryNo) : Prop :=
  s.slot a sl = .reserved e ∨ s.slot a sl = .occupied e ∨ s.slot a sl = .releasing e

/-- Whether the slot is held by a beltpack that lists the group (R45). -/
def State.slotLists (s : State) (a : AntennaNo) (g : Group) (sl : SlotNo) : Bool :=
  match (s.slot a sl).entry?.bind s.entry with
  | none => false
  | some x => x.groupA = some g || x.groupB = some g

/-- The slot map keeps to R44 and the lanes to R45: a slot names a beltpack of the roster, which holds one slot of an
antenna at most; the Occupied slot is the one its serving reference names; a Reserved slot is the target slot of its
transaction before the Arrival; and every group is counted once for each slot whose beltpack lists it. -/
structure SlotsAgree (s : State) : Prop where
  held : ∀ a sl e, Holds s a sl e → s.entry e ≠ none
  once : ∀ a sl sl' e, Holds s a sl e → Holds s a sl' e → sl = sl'
  occupied : ∀ a sl e x, s.entry e = some x → (s.slot a sl = .occupied e ↔ x.serving = some (a, sl))
  reserved : ∀ a sl e, s.slot a sl = .reserved e →
    ∃ c y, s.ctx c = some y ∧ y.entry = e ∧ y.target = some a ∧ y.targetSlot = some sl ∧ y.phase ≠ .release
  lanes : ∀ a g, laneUsers (s.ant a).lanes g = countOf (s.slotLists a g)

/-- The state of a beltpack by its transaction's kind and phase (R7 to R11, R93, R128). -/
def Context.fits (y : Context) (x : Entry) : Prop :=
  match x.state with
  | .unattached => False
  | .attaching => y.kind ≠ .move ∧ y.phase ≠ .release
  | .moving => y.kind = .move ∧ y.phase ≠ .release ∧ y.source = x.serving
  | .served => y.kind = .move ∧ y.phase = .release
  | .lost => y.kind = .summon ∧ y.phase ≠ .release ∨ y.kind = .move ∧ y.phase = .release

/-- The order that a transaction awaits, by its phase, where `a` is its target (R96 to R99, R102, R103). -/
def Context.awaits (y : Context) (a : AntennaNo) : Prop :=
  match y.phase with
  | .reserve => y.awaited = some ⟨.reserve, a⟩
  | .cue => ∃ b sl, y.source = some (b, sl) ∧ y.awaited = some ⟨.cue, b⟩
  | .summon => y.awaited = some ⟨.summon, a⟩
  | .arrival => y.awaited = none ∨ y.restartUsed = true ∧ y.awaited = some ⟨.summon, a⟩
  | .release => ∃ b sl, y.source = some (b, sl) ∧ y.awaited = some ⟨.release, b⟩

/-- The transaction `y` of context `c` keeps to R91: its beltpack names it and has the state that fits it; it has a source
exactly as a Move, which is Releasing in the Release phase (R103); its target slot is Reserved until the Arrival (R44); and
it awaits the order of its phase. -/
structure TransactionAgrees (s : State) (c : ContextNo) (y : Context) : Prop where
  entry : ∃ x, s.entry y.entry = some x ∧ x.context = some c ∧ y.fits x
  source : y.source.isSome = true ↔ y.kind = .move
  releasing : y.phase = .release → ∀ b sl, y.source = some (b, sl) → s.slot b sl = .releasing y.entry
  target : ∃ a sl, y.target = some a ∧ y.targetSlot = some sl ∧ y.awaits a ∧
    (y.phase ≠ .release → s.slot a sl = .reserved y.entry)

/-- An entry keeps to R2: its transaction field names the context that runs a transaction of it, which it has while it is
Attaching or Moving; a timer runs, and the mark is set, in the state that R2 gives. -/
structure EntryAgrees (s : State) (e : EntryNo) (x : Entry) : Prop where
  context : ∀ c, x.context = some c → ∃ y, s.ctx c = some y ∧ y.entry = e
  transit : x.state = .attaching ∨ x.state = .moving → x.context ≠ none
  settle : x.settleTimer ≠ none → x.state = .served
  lost : x.lostTimer ≠ none → x.state = .lost
  window : x.windowExpired = true → x.state = .lost ∧ x.context ≠ none

/-- The types of the orders at a port that a context posted and still awaits: in flight, pending, waiting. -/
def Port.awaitedBy (p : Port) (c : ContextNo) : List OrderType :=
  let flying := match p.inFlight with | some ⟨.order o, _, _⟩ => [o] | _ => []
  ((flying ++ p.fifo ++ p.waiting).filter fun o => o.poster = .context c).map (·.body.type)

/-- Slots, transactions, requests and orders agree (R2, R44, R45, R80, R91, R95). A beltpack has one request at most, and
none while its transaction runs; of the orders at the ports a context awaits one at most, the one that its record names. A
Release is posted by its slot (R106). -/
structure TransactionsInOrder (s : State) : Prop where
  slots : SlotsAgree s
  transactions : ∀ c y, s.ctx c = some y → TransactionAgrees s c y
  entries : ∀ e x, s.entry e = some x → EntryAgrees s e x
  requests : ∀ r ∈ s.queue, ∃ x, s.entry r.entry = some x ∧ x.context = none
  one : s.queue.Pairwise fun r r' => r.entry ≠ r'.entry
  orders : ∀ a c, (s.port a).awaitedBy c =
    match (s.ctx c).bind (·.awaited) with
    | none => []
    | some w => if w.port = a ∧ w.type ≠ .release then [w.type] else []

/-! ### Reset -/

/-- Every value that the spec gives for reset (R1, R24, R43, R45, R57, R77, R78, R91, R149, R162, R175). -/
structure ResetValues (t : State) : Prop where
  link : t.link = { rate := .bps115200, receiver := .hunting, execution := none, replies := [], transmitter := none,
                    mode := .push, selection := 0x07FF, notices := [.started],
                    flags := ⟨false, false, false, false, false⟩, domainAccrued := 0 }
  policy : t.policy.toList = [12, 3, 2, 40, 60, 20, 63, 20, 5, 15, 8, 1, 25, 1, 0, 1]
  roster : ∀ e, t.entry e = none
  strangers : t.strangers = []
  queue : t.queue = []
  contexts : ∀ c, t.ctx c = none
  trunk : t.running = false
  antennas : ∀ a, (t.ant a).link = .absent ∧ (t.ant a).fault = false ∧ (t.ant a).admin = .inService ∧
    (t.ant a).loopback = .off ∧ (t.ant a).changed = false ∧ (t.ant a).probeMisses = 0 ∧ (t.ant a).orderMisses = 0
  slots : ∀ a sl, t.slot a sl = .free
  lanes : ∀ a i, (t.ant a).lanes.get i = none
  ports : ∀ a, t.port a = { receiver := .hunting, fifo := [], waiting := [], inFlight := none, probeDue := false,
                            probeTimer := none }

end Sys2Proof.Machine
end

