-- ==== Sys2Proof/WellFormed.lean ====
section
/-! DEFINITION. Which terms of Instr are frames that the receivers can hand on (R150, R163, 12.3). The other operands are bounded by their types. -/

namespace Sys2Proof

/-- The Lengths of a command code by the table of 12.3; empty for a code that names no command (R165). -/
def commandLengths (code : Byte) : List Nat :=
  match code.toNat with
  | 0x01 | 0x02 | 0x05 | 0x09 | 0x10 | 0x11 | 0x30 | 0x31 => [0]
  | 0x03 | 0x12 | 0x14 => [1]
  | 0x08 | 0x13 | 0x15 => [2]
  | 0x04 => [3]
  | 0x16 => [4, 5, 6]
  | 0x20 => [6]
  | 0x21 | 0x22 | 0x27 | 0x28 | 0x29 => [1, 3]
  | 0x24 | 0x25 | 0x26 | 0x2A | 0x2B => [2, 4]
  | 0x23 => [3, 5]
  | _ => []

/-- A report payload that an Inject Report frame of Length 4, 5 or 6 can carry (12.3). -/
def injectedFields (fields : List Byte) : Bool :=
  2 ≤ fields.length && fields.length ≤ 4

/-- The instructions that a frame of the spec can spell. -/
def Instr.wellFormed : Instr → Bool
  | .injectSighting _ fields | .injectSeek _ fields
  | .injectArrival _ fields | .injectSignOff _ fields => injectedFields fields
  | .commandFrameLost code payload => (commandLengths code).contains payload.length
  | .reset | .identify | .readDomainStatus | .setLinkRate _ | .setNoticeMode _ _ | .fetchNotice
  | .setPolicyItem _ _ | .readPolicy | .trunkStart | .trunkStop | .readAntenna _ | .inServiceAction _
  | .drainAction _ | .outOfServiceAction _ | .forceOut _ | .clearAntennaFault _ | .setPortLoopback _ _
  | .enrolBeltpack _ _ _ _ | .withdrawBeltpack _ | .readBeltpack _ | .setGroups _ _ _ | .setClass _ _
  | .setPin _ _ | .directHandoff _ _ | .cancelRequest _ | .detachBeltpack _ | .readConditions _
  | .resolveFaultDismiss _ | .resolveFaultRetry _ | .resolveFaultNext _ | .resolveFaultDetach _
  | .setAdmission _ _ | .readQueue | .readTransactions | .receiveError _ _ | .gapTimerExpiry
  | .frameSent | .badTrunkFrame _ | .trunkGapExpiry _ | .status _ _ _ | .ack _ _ _ _ | .refuse _ _ _ _ _
  | .sighting _ _ | .seek _ _ _ | .arrival _ _ _ | .signOff _ _ | .probeTimerExpiry _ | .probeMiss _
  | .orderTimeout _ | .loopbackReply _ | .beginExchange _ | .waitingPosterPlaced _
  | .arrivalTimerExpiry _ | .lostWindowExpiry _ | .settleTimerExpiry _ | .candidateLifetimeExpiry _ _
  | .notBeforeExpiry _ | .dispatch | .rxdByteTaken _ | .trunkRxByte _ _ => true

end Sys2Proof
end

