-- ==== Sys2Proof/Certificates/Slice0/Obligations.lean ====
section
/-! DEFINITION. The statements for the provers. In a statement about a command, the premise that no command is in execution is R166's: a frame that ends during another command is refused with LOST. `s.wake` is `s` once its idle transmitter has chosen (log entry 7). -/

open Sys2Proof Sys2Proof.Machine

/-! ### Steps and reset -/

/-- The queue of waiting commands (log entry 4): a step runs the command at the front on the rest; on an empty queue the
part idles. No step stops the part: a bad command is refused by a frame, a bad frame sets a flag. -/
def Obligations.StepRunsTheFrontCommand : Prop :=
  (∀ (s : State) (c : Instr) (cs : List Instr), s.pending = c :: cs → step s = exec c { s with pending := cs }) ∧
  (∀ s : State, s.pending = [] → step s = .next s) ∧
  ∀ s : State, Safe s

/-- R162: RESET returns every block to its reset state from any state, and the state after reset has those values. The
commands that wait and the free-value index are the model's own and stay (log entry 5). -/
def Obligations.ResetReturnsEveryBlockToReset : Prop :=
  ResetValues State.reset ∧
  ∀ s : State, ∃ t, exec .reset s = .next t ∧ ResetValues t ∧ t.pending = s.pending ∧ t.freeIndex = s.freeIndex

/-! ### The Host Link's commands -/

/-- R177: Identify answers the identity fields, which the Started notice carries too, and changes nothing. -/
def Obligations.IdentifyAnswersTheIdentity : Prop :=
  (∀ s : State, s.link.execution = none → ∃ t, exec .identify s = .next t ∧
    Told s t 0x01 [0x0E, 0x5A, 0x01, 0x01, 0xA0, 0x01, 24, 8, 4, 96, 16, 8, 32, 8]) ∧
  Notice.started.payload = [0x0E, 0x5A, 0x01, 0x01, 0xA0, 0x01, 24, 8, 4, 96, 16, 8, 32, 8]

/-- R176: Read Policy answers the 16 fields in item order and changes nothing. -/
def Obligations.ReadPolicyAnswersTheFields : Prop :=
  ∀ s : State, s.link.execution = none → ∃ t, exec .readPolicy s = .next t ∧ Told s t 0x09 s.policy.toList

/-- R174, R183: Read Domain Status answers its live fields (the trunk, the counts of open antennas, entries, requests, busy
contexts and notices) and its latched ones, then clears the latched ones and nothing else. -/
def Obligations.ReadDomainStatusReportsAndClears : Prop :=
  ∀ s : State, s.link.execution = none → ∃ t flags, exec .readDomainStatus s = .next t ∧
    Replied s t 0x02 (answerFrame 0x02
      [if s.running then 1 else 0,
       byte (countOf fun a => decide ((s.ant a).link = .serveCapable ∧ (s.ant a).fault = false ∧
         (s.ant a).admin = .inService)),
       byte (countOf fun e => (s.entry e).isSome), byte s.queue.length, byte (countOf fun c => (s.ctx c).isSome),
       byte s.wake.link.notices.length, flags, s.link.domainAccrued]) ∧
    (flags.getLsbD 0 = s.link.flags.frameErrors ∧ flags.getLsbD 1 = s.link.flags.trunkErrors ∧
      flags.getLsbD 2 = s.link.flags.stray ∧ flags.getLsbD 3 = s.link.flags.noticesDiscarded ∧
      flags.getLsbD 4 = s.link.flags.antennaChangesSeen ∧ flags.toNat < 32) ∧
    t.link.flags = ⟨false, false, false, false, false⟩ ∧ t.link.domainAccrued = 0 ∧
    t.link.mode = s.link.mode ∧ t.link.selection = s.link.selection ∧ t.link.notices = s.wake.link.notices ∧
    t = { s with link := t.link }

/-- R169: Set Link Rate is answered at the old rate, and a new rate waits on the command in execution; a code above 4 is
refused with BADVALUE. FrameSentEndsTheTransmission says when the new rate takes effect. -/
def Obligations.SetLinkRateWaitsForItsAnswer : Prop :=
  ∀ (s : State) (b : Byte), s.link.execution = none → ∃ t, exec (.setLinkRate b) s = .next t ∧
    match b.toNat with
    | 0 => RateTaken s t .bps57600
    | 1 => RateTaken s t .bps115200
    | 2 => RateTaken s t .bps230400
    | 3 => RateTaken s t .bps460800
    | 4 => RateTaken s t .bps921600
    | _ => Refused s t 0x03 .badValue

/-- R171: Set Notice Mode sets mode and selection together, with Handoff Held held set; values out of range are refused.
R173: ATTN is low exactly in pull mode while the Notice Queue holds a notice. -/
def Obligations.SetNoticeModeSetsModeAndSelection : Prop :=
  (∀ (s : State) (b : Byte) (sel : BitVec 16), s.link.execution = none →
    ∃ t, exec (.setNoticeMode b sel) s = .next t ∧
      if b.toNat ≤ 1 ∧ sel.toNat < 2 ^ 11 then
        Replied s t 0x04 (answerFrame 0x04 []) ∧ t = { s with link := t.link } ∧
        t.link.mode = (if b = 0 then .push else .pull) ∧
        (∀ n < 16, t.link.selection.getLsbD n = (n == 3 || sel.getLsbD n)) ∧
        t.link.flags = s.link.flags ∧ t.link.domainAccrued = s.link.domainAccrued ∧
        t.link.notices = s.wake.link.notices
      else Refused s t 0x04 .badValue) ∧
  ∀ s : State, s.attnLow = true ↔ s.link.mode = .pull ∧ s.link.notices ≠ []

/-- R172, R173: Fetch Notice is refused with STATE in push mode; in pull mode it answers empty, or takes the oldest notice
and answers its code and payload. -/
def Obligations.FetchNoticeTakesTheOldest : Prop :=
  ∀ s : State, s.link.execution = none → ∃ t, exec .fetchNotice s = .next t ∧
    (s.link.mode = .push → Refused s t 0x05 .state) ∧
    (s.link.mode = .pull → s.link.notices = [] → Told s t 0x05 []) ∧
    ∀ n ns, s.link.mode = .pull → s.link.notices = n :: ns →
      Replied s t 0x05 (answerFrame 0x05 (n.code :: n.payload)) ∧ t.link.notices = ns ∧
      t.link.mode = .pull ∧ t.link.selection = s.link.selection ∧ t.link.flags = s.link.flags ∧
      t.link.domainAccrued = s.link.domainAccrued ∧ t = { s with link := t.link }

/-- R175, 12.4: Set Policy Item stores a field that is in its item's range and answers item and field; any other is
refused with BADVALUE. -/
def Obligations.SetPolicyItemStoresFieldsInRange : Prop :=
  ∀ (s : State) (item field : Byte), s.link.execution = none →
    ∃ t, exec (.setPolicyItem item field) s = .next t ∧
      match policyRanges[item.toNat - 1]?, item.toNat with
      | some (lo, hi), i + 1 =>
        if lo ≤ field.toNat ∧ field.toNat ≤ hi then
          Replied s t 0x08 (answerFrame 0x08 [item, field]) ∧ LinkKept s.wake.link t.link ∧
          t = { s with link := t.link, policy := t.policy } ∧ t.policy.toList = s.policy.toList.set i field
        else Refused s t 0x08 .badValue
      | _, _ => Refused s t 0x08 .badValue

/-! ### Frames on the Host Link -/

/-- R168: what an idle transmitter begins, in the order of the rule; a busy one begins nothing. -/
def Obligations.IdleTransmitterChoosesInOrder : Prop :=
  ∀ l : HostLink,
    (∀ f, l.transmitter = some f → l.choose = l) ∧
    (l.transmitter = none →
      (∀ x r rs, l.execution = some x → 0 < x.ahead → l.replies = r :: rs →
        l.choose = { l with transmitter := some r, replies := rs, execution := some { x with ahead := x.ahead - 1 } }) ∧
      (∀ x f, l.execution = some x → (x.ahead = 0 ∨ l.replies = []) → x.reply = some f → x.begun = false →
        l.choose = { l with transmitter := some f, execution := some { x with begun := true } }) ∧
      (∀ x, l.execution = some x → (x.ahead = 0 ∨ l.replies = []) → x.reply = none → l.choose = l) ∧
      (∀ r rs, l.execution = none → l.replies = r :: rs →
        l.choose = { l with transmitter := some r, replies := rs }) ∧
      (∀ n ns, l.execution = none → l.replies = [] → l.mode = .push → l.receiver = .hunting → l.notices = n :: ns →
        l.choose = { l with transmitter := some n.frame, notices := ns }) ∧
      (l.execution = none → l.replies = [] → (l.mode = .pull ∨ l.receiver ≠ .hunting ∨ l.notices = []) →
        l.choose = l))

/-- R168, R169: the last byte of a frame is sent. The sent reply ends its command and puts its new rate in force, where a
host frame that is partly received is refused with GAP; then the transmitter chooses. -/
def Obligations.FrameSentEndsTheTransmission : Prop :=
  ∀ (s : State) (f : HostFrame), s.link.transmitter = some f →
    ∃ t, exec .frameSent s = .next t ∧ t = { s with link := t.link } ∧
      (s.link.execution = none → t.link = HostLink.choose { s.link with transmitter := none }) ∧
      ∀ x, s.link.execution = some x →
        (x.begun = false → t.link = HostLink.choose { s.link with transmitter := none }) ∧
        (x.begun = true → x.newRate = none →
          t.link = HostLink.choose { s.link with transmitter := none, execution := none }) ∧
        ∀ r, x.begun = true → x.newRate = some r →
          (s.link.receiver = .hunting →
            t.link = HostLink.choose { s.link with transmitter := none, execution := none, rate := r }) ∧
          ∀ bytes, s.link.receiver = .inFrame bytes →
            t.link = HostLink.choose
              { s.link with
                transmitter := none, execution := none, rate := r, receiver := .hunting,
                flags := { s.link.flags with frameErrors := true },
                replies := if s.link.replies.length < 16
                  then s.link.replies ++ [refusalFrame (bytes[1]?.getD 0) .gap] else s.link.replies }

/-- R164 to R166: a host frame that ends badly, or by its gap, is refused and sets the frame errors flag; a complete command
frame that ends while a command is in execution is refused with LOST, which does not set it. Nothing else changes. A command
in execution keeps the transmitter busy (EveryStepKeepsTheStoresInOrder). That a gap timer's expiry while the receiver hunts
changes nothing is the model's choice (log entry 2). -/
def Obligations.UnexecutedFramesAreRefused : Prop :=
  ∀ (s : State) (code : Byte), (s.link.execution ≠ none → s.link.transmitter ≠ none) →
    (∃ t, exec (.receiveError code .check) s = .next t ∧ FrameRefused s t (refusalFrame code .check) true) ∧
    (∃ t, exec (.receiveError code .unknown) s = .next t ∧ FrameRefused s t (refusalFrame code .unknown) true) ∧
    (∃ t, exec (.receiveError code .length) s = .next t ∧ FrameRefused s t (refusalFrame code .length) true) ∧
    (∀ bytes, s.link.receiver = .inFrame bytes →
      ∃ t, exec .gapTimerExpiry s = .next t ∧ FrameRefused s t (refusalFrame (bytes[1]?.getD 0) .gap) true) ∧
    (s.link.receiver = .hunting → exec .gapTimerExpiry s = .next s.wake) ∧
    ∀ payload : List Byte, s.link.execution ≠ none → payload.length ∈ commandLengths code →
      ∃ t, exec (.commandFrameLost code payload) s = .next t ∧ FrameRefused s t (refusalFrame code .lost) false

/-! ### The trunk and the antennas -/

/-- R33, R34, R39, R42, R161: a command that names an antenna above 23 is refused with BADVALUE. -/
def Obligations.AntennaAbove23IsRefused : Prop :=
  ∀ (s : State) (b m : Byte) (p : List Byte), s.link.execution = none → 24 ≤ b.toNat →
    (∃ t, exec (.readAntenna b) s = .next t ∧ Refused s t 0x12 .badValue) ∧
    (∃ t, exec (.inServiceAction b) s = .next t ∧ Refused s t 0x13 .badValue) ∧
    (∃ t, exec (.drainAction b) s = .next t ∧ Refused s t 0x13 .badValue) ∧
    (∃ t, exec (.outOfServiceAction b) s = .next t ∧ Refused s t 0x13 .badValue) ∧
    (∃ t, exec (.forceOut b) s = .next t ∧ Refused s t 0x13 .badValue) ∧
    (∃ t, exec (.clearAntennaFault b) s = .next t ∧ Refused s t 0x14 .badValue) ∧
    (∃ t, exec (.setPortLoopback b m) s = .next t ∧ Refused s t 0x15 .badValue) ∧
    (∃ t, exec (.injectSighting b p) s = .next t ∧ Refused s t 0x16 .badValue) ∧
    (∃ t, exec (.injectSeek b p) s = .next t ∧ Refused s t 0x16 .badValue) ∧
    (∃ t, exec (.injectArrival b p) s = .next t ∧ Refused s t 0x16 .badValue) ∧
    ∃ t, exec (.injectSignOff b p) s = .next t ∧ Refused s t 0x16 .badValue

/-- R27: Trunk Start is refused with STATE while the trunk runs; else every port begins to probe, the miss counts start
from 0, and nothing else changes. A stopped trunk has no exchange in flight (EveryStepKeepsTheStoresInOrder). -/
def Obligations.TrunkStartBeginsToProbe : Prop :=
  ∀ s : State, s.link.execution = none → ∃ t, exec .trunkStart s = .next t ∧
    (s.running = true → Refused s t 0x10 .state) ∧
    (s.running = false →
      Done s t 0x10 [] s.wake.link ∧ t.running = true ∧
      (∀ a, t.ant a = { s.ant a with probeMisses := 0, orderMisses := 0 }) ∧
      (∀ a, (s.port a).inFlight = none → t.port a =
        { s.port a with
          probeTimer := some ((s.policy.get 8).toNat * 10), probeDue := false,
          inFlight := some ⟨.probe, 2, if (s.ant a).loopback = .off then none else some (.status 0x01 0x00)⟩ }) ∧
      t = { s with link := t.link, running := t.running, antennas := t.antennas, ports := t.ports })

/-- R18, R145 to R147: Trunk Stop is refused with STATE while the trunk is stopped; else it clears contexts, queue, slots,
lanes and ports, takes every entry off air, and queues its one notice, which counts the entries that were not Unattached and
the busy contexts. -/
def Obligations.TrunkStopClearsTheTrunk : Prop :=
  ∀ s : State, s.link.execution = none → ∃ t, exec .trunkStop s = .next t ∧
    (s.running = false → Refused s t 0x11 .state) ∧
    (s.running = true →
      Done s t 0x11 [] ((s.wake.link.inCommand 0x11).queueNotice (.trunkStopped
        (countOf fun e => (s.entry e).any fun x => x.state ≠ .unattached) (countOf fun c => (s.ctx c).isSome))) ∧
      t.running = false ∧ t.queue = [] ∧ (∀ c, t.ctx c = none) ∧
      (∀ a, t.port a = { receiver := .hunting, fifo := [], waiting := [], inFlight := none, probeDue := false,
                         probeTimer := none }) ∧
      (∀ a, t.ant a = { s.ant a with link := .absent, probeMisses := 0, orderMisses := 0, slots := (t.ant a).slots,
                                     lanes := (t.ant a).lanes }) ∧
      (∀ a, AllFree t a ∧ ∀ i, (t.ant a).lanes.get i = none) ∧
      (∀ e, t.entry e = (s.entry e).map fun x =>
        { x with state := .unattached, serving := none, context := none, settleTimer := none, lostTimer := none,
                 windowExpired := false, survey := ⟨none, [], none, 0, none⟩ }) ∧
      t = { s with link := t.link, running := t.running, antennas := t.antennas, ports := t.ports,
                   contexts := t.contexts, queue := t.queue, roster := t.roster })

/-- R25, R42, 12.5: Read Antenna answers the antenna's record, slots, lanes and port, then clears its change flag. An antenna
is carrying or open by the table of R25. -/
def Obligations.ReadAntennaAnswersItsRecord : Prop :=
  ∀ (s : State) (a : AntennaNo), s.link.execution = none → ∃ t flags, exec (.readAntenna (byte a)) s = .next t ∧
    Done s t 0x12
      ([byte a, match (s.ant a).link with | .absent => 0 | .listenOnly => 1 | .serveCapable => 2,
        if (s.ant a).fault then 1 else 0, match (s.ant a).admin with | .inService => 0 | .draining => 1 | .outOfService => 2,
        match (s.ant a).loopback with | .off => 0 | .ackAll => 1 | .refuseReserves => 2 | .silent => 3,
        flags, byte (s.ant a).probeMisses, byte (s.ant a).orderMisses, byte (s.port a).fifo.length]
      ++ (List.finRange 8).flatMap (fun sl => match s.slot a sl with
          | .free => [0, 0xFF] | .reserved e => [1, byte e] | .occupied e => [2, byte e] | .releasing e => [3, byte e])
      ++ (List.finRange 4).flatMap (fun i => match (s.ant a).lanes.get i with
          | none => [0, 0] | some l => [byte l.group, byte l.users])) s.wake.link ∧
    (flags.getLsbD 0 = (s.ant a).carrying ∧ flags.getLsbD 1 = (s.ant a).open ∧ flags.getLsbD 2 = (s.ant a).changed ∧
      flags.getLsbD 3 = (s.port a).inFlight.isSome ∧ flags.toNat < 16) ∧
    t = { s with link := t.link, antennas := s.antennas.set a { s.ant a with changed := false } } ∧
    ((s.ant a).carrying = true ↔ (s.ant a).link = .serveCapable ∧ (s.ant a).fault = false ∧
      ((s.ant a).admin = .inService ∨ (s.ant a).admin = .draining)) ∧
    ((s.ant a).open = true ↔
      (s.ant a).link = .serveCapable ∧ (s.ant a).fault = false ∧ (s.ant a).admin = .inService)

/-- R33, R35, R36: the In service action puts the antenna In service; the Drain action makes it Draining, or Out of service
with its notice where every slot is Free; Clear Antenna Fault clears the marker and the order miss count of a Serve-capable
antenna. That a drain completed at once counts as emptied by moves, and that the one Antenna Change notice of an action
carries the final fields, is the model's reading (log entries 14 and 15). -/
def Obligations.AntennaActionsSetTheirFields : Prop :=
  ∀ (s : State) (a : AntennaNo), s.link.execution = none →
    (∃ t, exec (.inServiceAction (byte a)) s = .next t ∧
      AntennaUpdated s t 0x13 [0] a { s.ant a with admin := .inService } []) ∧
    (∃ t, exec (.drainAction (byte a)) s = .next t ∧
      ((s.ant a).admin = .outOfService → Refused s t 0x13 .state) ∧
      ((s.ant a).admin ≠ .outOfService → AllFree s a →
        AntennaUpdated s t 0x13 [2] a { s.ant a with admin := .outOfService } [.drainComplete a .moves]) ∧
      ((s.ant a).admin ≠ .outOfService → ¬ AllFree s a →
        AntennaUpdated s t 0x13 [1] a { s.ant a with admin := .draining } [])) ∧
    ∃ t, exec (.clearAntennaFault (byte a)) s = .next t ∧
      ((s.ant a).link ≠ .serveCapable → Refused s t 0x14 .state) ∧
      ((s.ant a).link = .serveCapable → (s.ant a).fault = true →
        AntennaUpdated s t 0x14 [] a { s.ant a with fault := false, orderMisses := 0 } []) ∧
      ((s.ant a).link = .serveCapable → (s.ant a).fault = false → Told s t 0x14 [])

/-- R37: the Out of service action needs every slot Free. -/
def Obligations.OutOfServiceActionNeedsFreeSlots : Prop :=
  ∀ (s : State) (a : AntennaNo), s.link.execution = none → ∃ t, exec (.outOfServiceAction (byte a)) s = .next t ∧
    ((s.ant a).admin = .outOfService → Told s t 0x13 [2]) ∧
    ((s.ant a).admin ≠ .outOfService → AllFree s a →
      AntennaUpdated s t 0x13 [2] a { s.ant a with admin := .outOfService } []) ∧
    ((s.ant a).admin ≠ .outOfService → ¬ AllFree s a → Refused s t 0x13 .state)

/-- R38, R134: Force out makes the antenna Out of service; an antenna that was carrying is closed by the closing sweep, and the
dispatch follows. Nothing of the policy, the Stranger List and the other admin states changes. -/
def Obligations.ForceOutTakesOutOfService : Prop :=
  ∀ (s : State) (a : AntennaNo), s.link.execution = none → ∃ t, exec (.forceOut (byte a)) s = .next t ∧
    ((s.ant a).admin = .outOfService → Told s t 0x13 [2]) ∧
    ((s.ant a).admin ≠ .outOfService → (s.ant a).carrying = false → Rested s →
      AntennaUpdated s t 0x13 [2] a { s.ant a with admin := .outOfService } []) ∧
    (let changed : State := (s.atWork 0x13).recordChanged a { s.ant a with admin := .outOfService }
     ((s.ant a).admin ≠ .outOfService → (s.ant a).carrying = false → DoneThen s t 0x13 [2] changed) ∧
     ((s.ant a).admin ≠ .outOfService → (s.ant a).carrying = true →
       DoneThen s t 0x13 [2] (changed.closingSweep a none))) ∧
    ((s.ant a).admin ≠ .outOfService → (s.ant a).carrying = true →
      Replied s t 0x13 (answerFrame 0x13 [2]) ∧ Closed t a ∧
      (t.ant a).admin = .outOfService ∧ (t.ant a).changed = true ∧
      (t.ant a).link = (s.ant a).link ∧ (t.ant a).fault = (s.ant a).fault ∧ (t.ant a).loopback = (s.ant a).loopback ∧
      (∀ b, b ≠ a → sameService (s.ant b) (t.ant b) ∧ (t.ant b).changed = (s.ant b).changed) ∧
      t.policy = s.policy ∧ t.strangers = s.strangers ∧ t.running = s.running ∧ t.pending = s.pending ∧
      t.link.mode = s.link.mode ∧ t.link.selection = s.link.selection)

/-- R39: Set Port Loopback sets a new mode on an antenna whose slots are Free, makes it Absent where loopback begins or
ends, drops a probe in flight, and clears the port and lanes of an antenna that stops carrying. That a Draining antenna stays
Draining, that a trunk frame partly received is dropped without an error, and that the one Antenna Change notice carries the
final link state and loopback mode, is the model's reading (log entries 10, 8 and 15). -/
def Obligations.SetPortLoopbackSetsTheMode : Prop :=
  ∀ (s : State) (a : AntennaNo) (b : Byte), s.link.execution = none →
    ∃ t, exec (.setPortLoopback (byte a) b) s = .next t ∧
      (4 ≤ b.toNat → Refused s t 0x15 .badValue) ∧
      ∀ m : LoopbackMode,
        b = (match m with | .off => 0 | .ackAll => 1 | .refuseReserves => 2 | .silent => 3) →
        (¬ AllFree s a → Refused s t 0x15 .state) ∧
        (AllFree s a → (s.ant a).loopback = m → Told s t 0x15 []) ∧
        (AllFree s a → (s.ant a).loopback ≠ m →
          let crosses : Prop := (s.ant a).loopback = .off ∨ m = .off
          let closes : Prop := (s.ant a).carrying = true ∧ crosses
          let r' : Antenna := { s.ant a with loopback := m, probeMisses := 0, orderMisses := 0,
                                             link := if crosses then .absent else (s.ant a).link }
          Done s t 0x15 [] ((s.wake.link.inCommand 0x15).reportChange a (s.ant a) r') ∧
          t.antennas = s.antennas.set a
            { r' with changed := true, lanes := if closes then Vector.replicate 4 none else r'.lanes } ∧
          t.ports = s.ports.set a { s.port a with
            receiver := .hunting,
            fifo := if closes then [] else (s.port a).fifo,
            waiting := if closes then [] else (s.port a).waiting,
            inFlight := if closes ∨ (s.port a).probeInFlight = true then none else (s.port a).inFlight } ∧
          t = { s with link := t.link, antennas := t.antennas, ports := t.ports })

/-! ### The commands about beltpacks -/

/-- R3: the checks of a command that names a beltpack, in order: the reference, the values, the posted fault. A command
they refuse changes nothing. That two equal groups of Set Groups are refused among the values, before the posted fault, is
the model's choice (log entry 28). -/
def Obligations.ReferencesAreCheckedFirst : Prop :=
  ∀ (s : State) (i : Instr) (ref : BeltpackRef) (code : Byte) (inRange : Prop) (held : Bool),
    beltpackCommand i = some (ref, code, inRange, held) → s.link.execution = none →
    ∃ t, exec i s = .next t ∧
      (OutOfRange ref → Refused s t code .badValue) ∧
      (¬ OutOfRange ref → (∀ e x, ¬ Named s ref e x) → Refused s t code .noEntry) ∧
      ∀ e x, Named s ref e x →
        (¬ inRange → Refused s t code .badValue) ∧
        (inRange → held = true → x.posted ≠ none → Refused s t code .posted)

/-- R4: Enrol Beltpack's checks in order, and the entry that it makes at the lowest free index. -/
def Obligations.EnrolMakesAnEntry : Prop :=
  ∀ (s : State) (id : BeltpackId) (c a b : Byte), s.link.execution = none →
    ∃ t, exec (.enrolBeltpack id c a b) s = .next t ∧
      let bad : Prop := id = 0x000000 ∨ id = 0xFFFFFF ∨ 3 < c.toNat ∨ ¬ groupsInRange a b
      let known : Prop := ∃ e x, s.entry e = some x ∧ x.id = id
      (bad → Refused s t 0x20 .badValue) ∧
      (¬ bad → known → Refused s t 0x20 .duplicate) ∧
      (¬ bad → ¬ known → (∀ e, s.entry e ≠ none) → Refused s t 0x20 .rosterFull) ∧
      ∀ e, ¬ bad → ¬ known → s.entry e = none → (∀ e' < e, s.entry e' ≠ none) →
        Done s t 0x20 [byte e] s.wake.link ∧
        (∃ y, t.roster = s.roster.set e (some y) ∧ y.id = id ∧ y.state = .unattached ∧ y.cls.val = c.toNat ∧
          y.groupA.map Fin.val = (if a = 0 then none else some a.toNat) ∧
          y.groupB.map Fin.val = (if b = 0 then none else some b.toNat) ∧
          y.pinned = false ∧ y.admission = .admitted ∧ y.serving = none ∧ y.context = none ∧ y.settleTimer = none ∧
          y.lostTimer = none ∧ y.windowExpired = false ∧ y.current = 0 ∧ y.accrued = 0 ∧ y.posted = none ∧
          y.survey = ⟨none, [], none, 0, none⟩) ∧
        t.strangers = s.strangers.filter (· ≠ id) ∧
        t = { s with link := t.link, roster := t.roster, strangers := t.strangers }

/-- R5: Withdraw Beltpack removes an Unattached or Lost entry that holds no unsettled slot, with its request. -/
def Obligations.WithdrawRemovesTheEntry : Prop :=
  ∀ (s : State) (ref : BeltpackRef) (e : EntryNo) (x : Entry), s.link.execution = none → Named s ref e x →
    x.posted = none → ∃ t, exec (.withdrawBeltpack ref) s = .next t ∧
      (x.context ≠ none ∨ Unsettled s e → Refused s t 0x21 .inTransit) ∧
      (x.context = none → ¬ Unsettled s e → x.state = .served → Refused s t 0x21 .state) ∧
      (x.context = none → ¬ Unsettled s e → x.state = .unattached ∨ x.state = .lost →
        Done s t 0x21 [] s.wake.link ∧
        t = { s with link := t.link, roster := s.roster.set e none, queue := s.queue.filter (·.entry ≠ e) })

/-- R6, R22, 12.5: Read Beltpack answers the entry and changes nothing; Read Conditions answers the two sets and empties
the accrued one. Both are taken while a fault is posted. -/
def Obligations.BeltpackReadsAnswerTheEntry : Prop :=
  ∀ (s : State) (ref : BeltpackRef) (e : EntryNo) (x : Entry), s.link.execution = none → Named s ref e x →
    (∃ t, exec (.readBeltpack ref) s = .next t ∧ Told s t 0x22 (beltpackAnswer s e x)) ∧
    ∃ t, exec (.readConditions ref) s = .next t ∧ Done s t 0x29 [x.current, x.accrued] s.wake.link ∧
      t = { s with link := t.link, roster := s.roster.set e (some { x with accrued := 0 }) }

/-- R19, R55, R56: Set Groups by the beltpack's state: at its serving antenna the dropped groups are uncounted and the added
ones counted, or the command is refused with NOLANE. -/
def Obligations.SetGroupsReaccountsTheLanes : Prop :=
  ∀ (s : State) (ref : BeltpackRef) (e : EntryNo) (x : Entry) (ga gb : Option Group),
    s.link.execution = none → Named s ref e x → x.posted = none →
    ga ≠ some 0 → gb ≠ some 0 → (ga = none ∨ ga ≠ gb) →
    ∃ t, exec (.setGroups ref (groupByte ga) (groupByte gb)) s = .next t ∧
      let y : Entry := { x with groupA := ga, groupB := gb }
      (x.context ≠ none ∨ Unsettled s e → Refused s t 0x23 .inTransit) ∧
      (x.context = none → ¬ Unsettled s e → x.state = .unattached ∨ x.state = .lost →
        Done s t 0x23 [] s.wake.link ∧ t = { s with link := t.link, roster := s.roster.set e (some y) }) ∧
      ∀ a sl, x.context = none → ¬ Unsettled s e → x.state = .served → x.serving = some (a, sl) →
        LanesApart (s.ant a).lanes → (x.groupA = none ∨ x.groupA ≠ x.groupB) →
        let old := x.groupA.toList ++ x.groupB.toList
        let new := ga.toList ++ gb.toList
        let lanes := (s.ant a).lanes
        let willBeEmpty := (List.finRange 4).filter fun i => ∀ l, lanes.get i = some l →
          l.group ∈ old ∧ l.group ∉ new ∧ l.users = 1
        let needed := new.filter fun g => g ∉ old ∧ NoLaneFor lanes g
        (willBeEmpty.length < needed.length → Refused s t 0x23 .noLane) ∧
        (needed.length ≤ willBeEmpty.length →
          Done s t 0x23 [] s.wake.link ∧
          t = { s with link := t.link, roster := s.roster.set e (some y),
                       antennas := s.antennas.set a { s.ant a with lanes := (t.ant a).lanes } } ∧
          LanesApart (t.ant a).lanes ∧
          (∀ g, laneUsers (t.ant a).lanes g + (if g ∈ old ∧ g ∉ new then min 1 (laneUsers lanes g) else 0) =
            laneUsers lanes g + (if g ∈ new ∧ g ∉ old then 1 else 0)) ∧
          ∀ i l, lanes.get i = some l → (l.group ∈ old ↔ l.group ∈ new) → (t.ant a).lanes.get i = some l)

/-- R20, R21: Set Class, Set Pin and Set Admission change their one field; Set Admission is taken while a fault is
posted. -/
def Obligations.ClassPinAndAdmissionAreSet : Prop :=
  ∀ (s : State) (ref : BeltpackRef) (e : EntryNo) (x : Entry), s.link.execution = none → Named s ref e x →
    (x.posted = none → ∀ k : ClassNo, ∃ t, exec (.setClass ref (byte k)) s = .next t ∧ Done s t 0x24 [] s.wake.link ∧
      t = { s with link := t.link, roster := s.roster.set e (some { x with cls := k }) }) ∧
    (x.posted = none → ∀ p : Bool, ∃ t, exec (.setPin ref (if p then 1 else 0)) s = .next t ∧
      Done s t 0x25 [] s.wake.link ∧
      t = { s with link := t.link, roster := s.roster.set e (some { x with pinned := p }) }) ∧
    ∀ b : Bool, ∃ t, exec (.setAdmission ref (if b then 1 else 0)) s = .next t ∧ Done s t 0x2B [] s.wake.link ∧
      t = { s with link := t.link,
                   roster := s.roster.set e (some { x with admission := if b then .barred else .admitted }) }

/-- R178: Direct Handoff's checks 4 to 7 in order; then the Directed request is raised and dispatched if it may go. -/
def Obligations.DirectHandoffRaisesADirectedRequest : Prop :=
  ∀ (s : State) (ref : BeltpackRef) (e : EntryNo) (x : Entry) (a : AntennaNo), s.link.execution = none →
    Named s ref e x → x.posted = none → ∃ t, exec (.directHandoff ref (byte a)) s = .next t ∧
      if x.context ≠ none then Refused s t 0x26 .inTransit
      else if x.state = .unattached ∧ x.admission = .barred then Refused s t 0x26 .state
      else if (s.ant a).open = false then Refused s t 0x26 .notOpen
      else if QueueFullFor s e then Refused s t 0x26 .queueFull
      else DoneThen s t 0x26 [] ((s.atWork 0x26).raiseRequest e ⟨.directed, some a, 0⟩)

/-- R111: Cancel Request removes a queued request, ends a transaction in its Reserve phase, and is refused otherwise. -/
def Obligations.CancelEndsAReserve : Prop :=
  ∀ (s : State) (ref : BeltpackRef) (e : EntryNo) (x : Entry), s.link.execution = none → Named s ref e x →
    x.posted = none → ∃ t, exec (.cancelRequest ref) s = .next t ∧
      (HasRequest s e → Done s t 0x27 [] s.wake.link ∧
        t = { s with link := t.link, queue := s.queue.filter (·.entry ≠ e) }) ∧
      (¬ HasRequest s e → x.context = none → Refused s t 0x27 .state) ∧
      ∀ c y, ¬ HasRequest s e → x.context = some c → s.ctx c = some y →
        (y.phase = .reserve → DoneThen s t 0x27 [] (((s.atWork 0x27).giveUpAttempt c).endTransaction c)) ∧
        (y.phase ≠ .reserve → Refused s t 0x27 .tooLate)

/-- R16, R132: Detach Beltpack, and the Detach action of Resolve Fault, which clears the posting, take a beltpack off air by
its state and bar it. -/
def Obligations.DetachTakesOffAirAndBars : Prop :=
  ∀ (s : State) (ref : BeltpackRef) (e : EntryNo) (x : Entry) (i : Instr) (code : Byte),
    s.link.execution = none → Named s ref e x →
    (i = .detachBeltpack ref ∧ code = 0x28 ∧ x.posted = none ∨
      i = .resolveFaultDetach ref ∧ code = 0x2A ∧ x.posted ≠ none) →
    ∃ t, exec i s = .next t ∧
      let barred : Entry := { x with posted := none, admission := .barred }
      let offAir : Entry :=
        { barred with state := .unattached, serving := none, context := none, settleTimer := none, lostTimer := none,
                      windowExpired := false, survey := ⟨none, [], none, 0, none⟩ }
      let told := (s.wake.link.inCommand code).queueNotice (.unattached e x.id .detach)
      (x.context ≠ none → Refused s t code .inTransit) ∧
      (x.context = none → x.state = .unattached → Done s t code [] s.wake.link ∧
        t = { s with link := t.link, roster := s.roster.set e (some barred), queue := s.queue.filter (·.entry ≠ e) }) ∧
      (x.context = none → x.state = .lost → Done s t code [] told ∧
        t = { s with link := t.link, roster := s.roster.set e (some offAir), queue := s.queue.filter (·.entry ≠ e) }) ∧
      ∀ a sl, x.context = none → x.state = .served → x.serving = some (a, sl) → Done s t code [] told ∧
        t = { s.releaseSlot a sl with
              link := t.link, roster := s.roster.set e (some offAir), queue := s.queue.filter (·.entry ≠ e) }

/-- R130, R131: Resolve Fault without a posting is refused with STATE. Dismiss clears the posting; Retry raises the posted
cause toward the posted target, and Next away from it, unless a transaction or a full queue refuses them. That Next of a
Drain excludes both the serving antenna and the posted target is the model's reading (log entry 23). -/
def Obligations.ResolveFaultSettlesThePosting : Prop :=
  ∀ (s : State) (ref : BeltpackRef) (e : EntryNo) (x : Entry), s.link.execution = none → Named s ref e x →
    (x.posted = none → ∀ i ∈ [Instr.resolveFaultDismiss ref, .resolveFaultRetry ref, .resolveFaultNext ref,
        .resolveFaultDetach ref], ∃ t, exec i s = .next t ∧ Refused s t 0x2A .state) ∧
    ∀ p, x.posted = some p →
      let cleared (l : HostLink) : State :=
        { s with link := l, roster := s.roster.set e (some { x with posted := none }) }
      let drain : AntennaSet := if p.cause = .drain ∧ x.state = .served then optionBit (x.serving.map (·.1)) else 0
      (∃ t, exec (.resolveFaultDismiss ref) s = .next t ∧ Done s t 0x2A [] s.wake.link ∧ t = cleared t.link) ∧
      (∃ t, exec (.resolveFaultRetry ref) s = .next t ∧
        if x.context ≠ none then Refused s t 0x2A .inTransit
        else if QueueFullFor s e then Refused s t 0x2A .queueFull
        else DoneThen s t 0x2A []
          ((cleared (s.wake.link.inCommand 0x2A)).raiseRequest e ⟨p.cause, p.target, drain⟩)) ∧
      ∃ t, exec (.resolveFaultNext ref) s = .next t ∧
        if x.context ≠ none then Refused s t 0x2A .inTransit
        else if QueueFullFor s e then Refused s t 0x2A .queueFull
        else DoneThen s t 0x2A []
          ((cleared (s.wake.link.inCommand 0x2A)).raiseRequest e ⟨p.cause, none, drain ||| optionBit p.target⟩)

/-- R90, R114, 12.5: Read Queue answers the requests in key order, Read Transactions the eight contexts, and neither changes
anything. The time left on a running timer is a free value within the timer's range (log entry 3). -/
def Obligations.QueueAndContextReadsAnswer : Prop :=
  ∀ s : State, s.link.execution = none →
    (∃ (t : State) (left : List Nat), exec .readQueue s = .next t ∧ left.length = s.queue.length ∧
      Done s t 0x30 (byte s.queue.length :: (s.queue.zip left).flatMap fun p => queueRecord p.1 p.2) s.wake.link ∧
      (∀ p ∈ s.queue.zip left, 1 ≤ p.2 ∧ ∀ ms, p.1.notBefore = some ms → p.2 ≤ max 1 ((ms + 9) / 10)) ∧
      t = { s with link := t.link, freeIndex := t.freeIndex }) ∧
    ∃ (t : State) (left : ContextNo → Nat), exec .readTransactions s = .next t ∧
      Done s t 0x31 (byte (countOf fun c => (s.ctx c).isSome) :: (List.finRange 8).flatMap fun c => contextAnswer s c (left c)) s.wake.link ∧
      (∀ c x ms, s.ctx c = some x → x.arrivalTimer = some ms → 1 ≤ left c ∧ left c ≤ max 1 ((ms + 3) / 4)) ∧
      t = { s with link := t.link, freeIndex := t.freeIndex }

/-! ### Host frames byte by byte -/

/-- R163 to R165: a host frame taken byte by byte from hunting does what its row does: the tests of R165 in order give the
receive error, or the command frame is complete. A Length above 240 ends the frame at once, and a byte that begins no frame
is dropped. That a complete command frame is executed where no command is in execution is how the model reads the row
COMMAND_FRAME_LOST (log entry 24). -/
def Obligations.HostBytesSpellTheFrame : Prop :=
  ∀ (s : State) (kind code : Byte), s.link.receiver = .hunting →
    (∀ (payload : List Byte) (check : Byte), payload.length ≤ 240 →
      execAll (([0xC5, kind, code, byte payload.length] ++ payload ++ [check]).map Instr.rxdByteTaken) s =
        exec (if ([kind, code, byte payload.length] ++ payload).foldl (· ^^^ ·) 0 ≠ check then .receiveError code .check
          else if kind ≠ 0x51 ∨ commandLengths code = [] then .receiveError code .unknown
          else if payload.length ∉ commandLengths code then .receiveError code .length
          else .commandFrameLost code payload) s) ∧
    (∀ length : Byte, 240 < length.toNat →
      execAll ([0xC5, kind, code, length].map Instr.rxdByteTaken) s = exec (.receiveError code .length) s) ∧
    ∀ b : Byte, b ≠ 0xC5 → exec (.rxdByteTaken b) s = .next s.wake

/-- 12.3: a host command's row is the complete command frame with its code and payload; while another command is in
execution that frame is refused with LOST (UnexecutedFramesAreRefused). That the row COMMAND_FRAME_LOST executes it where none
is in execution is the model's choice (log entry 24). -/
def Obligations.HostCommandIsItsFrame : Prop :=
  ∀ (s : State) (i : Instr) (code : Byte) (payload : List Byte), hostFrame i = some (code, payload) →
    i.wellFormed = true → payload.length ∈ commandLengths code ∧ exec i s = exec (.commandFrameLost code payload) s

/-- R170: a notice that is not selected is dropped, one that finds 32 held is discarded with the flag, and any other is
placed at the newest end, where an idle transmitter may begin it at once (R168). -/
def Obligations.NoticeIsDroppedPlacedOrDiscarded : Prop :=
  ∀ (l : HostLink) (n : Notice),
    let selected : Prop := n.index = 3 ∨ l.selection.getLsbD n.index = true
    (¬ selected → l.queueNotice n = l) ∧
    (selected → 32 ≤ l.notices.length →
      l.queueNotice n = { l with flags := { l.flags with noticesDiscarded := true } }) ∧
    (selected → l.notices.length < 32 → l.queueNotice n = HostLink.choose { l with notices := l.notices ++ [n] })

/-- R150, R151, R153, R163, R183, 12.2, 12.5, 12.6: what the part sends, on TXD and on a port's TX line, which a looped-back
port does not drive: the frames with their checks (the trunk check is the remainder by the polynomial, low-order bit first),
and the bytes of a refusal, of every notice, of a probe and of every order. -/
def Obligations.EveryFrameCarriesItsCheck : Prop :=
  (∀ f : HostFrame, ∃ kind check : Byte,
    kind = (match f.kind with | .answer => 0x52 | .refusal => 0x53 | .notice => 0x54) ∧
    f.bytes = [0xC5, kind, f.code, byte f.payload.length] ++ f.payload ++ [check] ∧
    (f.bytes.drop 1).foldl (· ^^^ ·) 0 = 0) ∧
  (∀ (type : Byte) (payload : List Byte), ∃ low high : Byte,
    trunkFrame type payload = [0xD3, type, byte payload.length] ++ payload ++ [low, high] ∧
    crc ([type, byte payload.length] ++ payload ++ [low, high]) = 0) ∧
  (∀ (v : BitVec 16) (b : Byte), crcByte v b = (List.range 8).foldl (fun v n => crcBit v (b.getLsbD n)) v) ∧
  (∀ n : Notice, n.frame = ⟨.notice, (noticeLayout n).1, (noticeLayout n).2⟩) ∧
  (∀ (code : Byte) (r : RefusalCode), refusalFrame code r = ⟨.refusal, code, [refusalField r]⟩) ∧
  (∀ x : Sent, x.frame = trunkFrame (sentLayout x).1 (sentLayout x).2) ∧
  ∀ s : State,
    (s.link.transmitter = none → s.txd = []) ∧ (∀ f, s.link.transmitter = some f → s.txd = f.bytes) ∧
    ∀ a, ((s.ant a).loopback ≠ .off ∨ (s.port a).inFlight = none → s.txLine a = []) ∧
      ∀ x, (s.ant a).loopback = .off → (s.port a).inFlight = some x → s.txLine a = x.sent.frame

/-! ### Frames, replies and exchanges at a port -/

/-- R150 to R152: a trunk frame taken byte by byte from hunting, at a port whose loopback mode is Off, does what its row
does; a frame with another check, of no Type that a unit sends, or of no Length of its Type is a bad frame, and so is a
Length above 16 at once. A byte that begins no frame is dropped, and a looped-back port takes none. -/
def Obligations.TrunkBytesSpellTheFrame : Prop :=
  ∀ (s : State) (a : AntennaNo), (s.port a).receiver = .hunting →
    ((s.ant a).loopback = .off →
      (∀ (i : Instr) (type : Byte) (payload : List Byte), lineFrame i = some (a, type, payload) →
        execAll ((trunkFrame type payload).map (Instr.trunkRxByte a)) s = exec i s) ∧
      (∀ (type low high : Byte) (payload : List Byte), payload.length ≤ 16 →
        crc ([type, byte payload.length] ++ payload ++ [low, high]) ≠ 0 ∨ payload.length ∉ lineLengths type →
        execAll (([0xD3, type, byte payload.length] ++ payload ++ [low, high]).map (Instr.trunkRxByte a)) s =
          exec (.badTrunkFrame a) s) ∧
      (∀ type length : Byte, 16 < length.toNat →
        execAll ([0xD3, type, length].map (Instr.trunkRxByte a)) s = exec (.badTrunkFrame a) s) ∧
      ∀ b : Byte, b ≠ 0xD3 → exec (.trunkRxByte a b) s = .next s.wake) ∧
    ((s.ant a).loopback ≠ .off → ∀ b : Byte, exec (.trunkRxByte a b) s = .next s.wake)

/-- R152: a bad frame sets the trunk errors flag and does nothing else; a gap inside a frame makes it a bad frame. A
looped-back port takes nothing from its line. That a gap timer's expiry while the receiver hunts changes nothing is the
model's choice (log entry 2). -/
def Obligations.BadTrunkFrameSetsTheFlag : Prop :=
  ∀ (s : State) (a : AntennaNo),
    ((s.ant a).loopback ≠ .off → exec (.badTrunkFrame a) s = .next s.wake) ∧
    ((s.ant a).loopback = .off → exec (.badTrunkFrame a) s = .next
      { s.heard a with link := { s.wake.link with flags := { s.link.flags with trunkErrors := true } } }) ∧
    ((s.port a).receiver = .hunting → exec (.trunkGapExpiry a) s = .next s.wake) ∧
    ∀ bytes, (s.port a).receiver = .inFrame bytes → exec (.trunkGapExpiry a) s = exec (.badTrunkFrame a) s

/-- R29 to R32, R40, R50, R134, R156, R157, R160: how an exchange ends. A reply from the line of a port whose loopback mode is
Off, and the prepared reply of any port, are taken by the exchange they match, or are strays; nothing is taken from a
looped-back line. A probe miss raises the count to at most 3, and the third makes the antenna Absent. An order timeout gives
its outcome to the poster and raises the order miss count, and the second in a row sets the fault marker: a Release is ended
before the count rises; a context's order is disposed of after it, or, where the marker ends carrying, by the closing sweep
with the sweep's condition. A change that ends carrying runs the closing sweep (SweepTakesEachSlotByItsState says what that
does). The model's choices: an event with nothing to end changes nothing (log entry 2), a prepared reply comes before its
timer (9), the order of the parts of a Release timeout (11), and that the notice of a Status that changes
link state and fault marker carries both (15). -/
def Obligations.ExchangesEndByReplyOrTimeout : Prop :=
  (∀ (s : State) (a : AntennaNo) (m f ty sl re : Byte) (id : BeltpackId),
    ((s.ant a).loopback = .off →
      (∃ t, exec (.status a m f) s = .next t ∧ ReplyTaken (s.heard a) t a (.status m f)) ∧
      (∃ t, exec (.ack a ty id sl) s = .next t ∧ ReplyTaken (s.heard a) t a (.ack ty id sl)) ∧
      ∃ t, exec (.refuse a ty id sl re) s = .next t ∧ ReplyTaken (s.heard a) t a (.refuse ty id sl)) ∧
    ((s.ant a).loopback ≠ .off →
      exec (.status a m f) s = .next s.wake ∧ exec (.ack a ty id sl) s = .next s.wake ∧
      exec (.refuse a ty id sl re) s = .next s.wake) ∧
    (∀ x r, (s.port a).inFlight = some x → x.prepared = some r →
      ∃ t, exec (.loopbackReply a) s = .next t ∧ ReplyTaken s.wake t a r) ∧
    ((s.port a).inFlight.bind (·.prepared) = none → exec (.loopbackReply a) s = .next s.wake)) ∧
  ∀ (s : State) (a : AntennaNo),
    let h := s.wake.ended a
    let counted (r : Antenna) : Antenna :=
      { r with orderMisses := min 2 (r.orderMisses + 1), fault := r.fault || decide (1 ≤ r.orderMisses) }
    let faults : Prop := (s.ant a).carrying = true ∧ (counted (s.ant a)).carrying = false
    (∀ x, (s.port a).inFlight = some x → x.sent = .probe → x.prepared = none →
      ∃ t, exec (.probeMiss a) s = .next t ∧ AntennaEvent h t a none
        { s.ant a with probeMisses := min 3 ((s.ant a).probeMisses + 1),
                       link := if 2 ≤ (s.ant a).probeMisses then .absent else (s.ant a).link }) ∧
    ((∀ x, (s.port a).inFlight = some x → x.sent ≠ .probe ∨ x.prepared ≠ none) →
      exec (.probeMiss a) s = .next s.wake) ∧
    (∀ x o, (s.port a).inFlight = some x → x.sent = .order o → x.prepared = none →
      ∃ t, exec (.orderTimeout a) s = .next t ∧
        (o.poster = .nobody → AntennaEvent h t a none (counted (s.ant a))) ∧
        (∀ sl, o.poster = .slot sl →
          AntennaEvent (h.giveOutcome a o .timedOut) t a none (counted ((h.giveOutcome a o .timedOut).ant a))) ∧
        ∀ c, o.poster = .context c →
          (faults → AntennaEvent h t a (some c) (counted (s.ant a))) ∧
          (¬ faults →
            t = ((((h.recordChanged a (counted (s.ant a))).giveOutcome a o .timedOut).beginExchange a)).settle)) ∧
    ((∀ x o, (s.port a).inFlight = some x → x.sent = .order o → x.prepared ≠ none) →
      exec (.orderTimeout a) s = .next s.wake)

/-- R28, R154, R155, R160: an idle port of the running trunk begins a due probe, else its oldest order, whose place the
oldest waiting poster takes; a posting joins the FIFO or waits; a probe timer that expires starts again and makes a probe
due. The rows BEGIN_EXCHANGE and WAITING_POSTER_PLACED in any state are the model's reading (log entries 1 and 12), and an
expiry of a probe timer that does not run is its choice (log entry 2). -/
def Obligations.PortsBeginTheirExchanges : Prop :=
  ∀ (s : State) (a : AntennaNo),
    let p := s.port a
    let mode := (s.ant a).loopback
    let become (q : Port) : State := { s with ports := s.ports.set a q }
    (exec (.beginExchange a) s = .next (s.wake.beginExchange a)) ∧
    (s.running = false ∨ p.inFlight ≠ none ∨ p.probeDue = false ∧ p.fifo = [] → s.beginExchange a = s) ∧
    (s.running = true → p.inFlight = none → p.probeDue = true → s.beginExchange a =
      become { p with probeDue := false, inFlight := some ⟨.probe, 2, preparedReply mode .probe⟩ }) ∧
    (∀ o os, s.running = true → p.inFlight = none → p.probeDue = false → p.fifo = o :: os → p.fifo.length ≤ 6 →
      s.beginExchange a =
        become { p with fifo := os ++ p.waiting.take 1, waiting := p.waiting.drop 1,
                        inFlight := some ⟨.order o, (s.policy.get 7).toNat, preparedReply mode (.order o)⟩ }) ∧
    (∀ o, s.postOrder a o = State.beginExchange
      (become (if p.fifo.length < 6 ∧ p.waiting = [] then { p with fifo := p.fifo ++ [o] }
        else { p with waiting := p.waiting ++ [o] })) a) ∧
    (∀ o os, p.waiting = o :: os → p.fifo.length < 6 → exec (.waitingPosterPlaced a) s =
      exec (.beginExchange a) (become { p with fifo := p.fifo ++ [o], waiting := os })) ∧
    (p.waiting = [] ∨ 6 ≤ p.fifo.length → exec (.waitingPosterPlaced a) s = exec (.beginExchange a) s) ∧
    (p.probeTimer ≠ none → exec (.probeTimerExpiry a) s = exec (.beginExchange a)
      (become { p with probeTimer := some ((s.policy.get 8).toNat * 10),
                       probeDue := p.probeDue || decide (p.inFlight.map Exchange.sent ≠ some .probe) })) ∧
    (p.probeTimer = none → exec (.probeTimerExpiry a) s = exec (.beginExchange a) s)

/-- R50, R95 to R99, R102, R141, R156: what the outcome of an order does at the poster that awaits it. -/
def Obligations.OutcomesGoToThePoster : Prop :=
  ∀ (s : State) (a : AntennaNo) (o : Order) (w : OrderOutcome),
    (o.poster = .nobody → s.giveOutcome a o w = s) ∧
    (∀ c y, o.poster = .context c → s.ctx c = some y →
      let become (y' : Context) : State := { s with contexts := s.contexts.set c (some y') }
      (w = .refused → s.giveOutcome a o w = s.dispose c 0x10) ∧
      (w = .timedOut → s.giveOutcome a o w = s.dispose c 0x04) ∧
      (w = .acked →
        (∀ b bsl ta sl z, y.phase = .reserve → y.kind = .move → y.source = some (b, bsl) → y.target = some ta →
          y.targetSlot = some sl → s.entry y.entry = some z →
          s.giveOutcome a o w =
            (become { y with phase := .cue, awaited := some ⟨.cue, b⟩ }).postOrder b ⟨.cue ta, z.id, sl, .context c⟩) ∧
        (∀ ta sl z, y.phase = .reserve → y.kind ≠ .move → y.target = some ta → y.targetSlot = some sl →
          s.entry y.entry = some z →
          s.giveOutcome a o w =
            (become { y with phase := .summon, awaited := some ⟨.summon, ta⟩ }).postOrder ta
              ⟨.summon, z.id, sl, .context c⟩) ∧
        (y.phase = .cue ∨ y.phase = .summon → s.giveOutcome a o w =
          become { y with phase := .arrival, awaited := none,
                          arrivalTimer := some (((s.policy.get 6).toNat + 1) * 4) }) ∧
        (y.phase = .arrival ∨ y.phase = .release → s.giveOutcome a o w =
          become { y with awaited := none }))) ∧
    (∀ sl e x, o.poster = .slot sl → s.slot a sl = .releasing e → s.entry e = some x →
      (∀ c y, x.context = some c → s.ctx c = some y → y.phase = .release ∧ y.source = some (a, sl) →
        s.giveOutcome a o w =
          ((State.freeSlot
            (if w = .timedOut then
              { s with roster := s.roster.set e (some { x with accrued := x.accrued ||| 0x04 }),
                       link := { s.link with domainAccrued := s.link.domainAccrued ||| 0x04 } }
              else s) a sl).complete c).drainTest a .moves) ∧
      ((∀ c y, x.context = some c → s.ctx c = some y → ¬ (y.phase = .release ∧ y.source = some (a, sl))) →
        s.giveOutcome a o w = (s.freeSlot a sl).drainTest a .moves)) ∧
    (∀ how, s.drainTest a how =
      if (s.ant a).admin = .draining ∧ AllFree s a then
        { s with link := (s.link.reportChange a (s.ant a) { s.ant a with admin := .outOfService }).queueNotice
                   (.drainComplete a how),
                 antennas := s.antennas.set a ((s.ant a).flagged { s.ant a with admin := .outOfService }) }
      else s)

/-! ### Reports and the Survey Unit -/

/-- R158, R161: a report from the line of a port whose loopback mode is Off goes to its block, unless the port is Absent; an
injected report needs a length of its kind and a looped-back port, and its answer says whether it was delivered. -/
def Obligations.ReportsAreDelivered : Prop :=
  ∀ (s : State) (a : AntennaNo),
    (∀ i r, lineReport i = some (a, r) →
      ((s.ant a).loopback ≠ .off → exec i s = .next s.wake) ∧
      ((s.ant a).loopback = .off → (s.ant a).link = .absent → exec i s = .next (s.heard a)) ∧
      ((s.ant a).loopback = .off → (s.ant a).link ≠ .absent →
        exec i s = .next (r.taken a (s.heard a)).settle)) ∧
    ∀ i found, injected i = some (byte a, found) → s.link.execution = none → ∃ t, exec i s = .next t ∧
      (found = none → Refused s t 0x16 .length) ∧
      ∀ r, found = some r →
        ((s.ant a).loopback = .off → Refused s t 0x16 .state) ∧
        ((s.ant a).loopback ≠ .off → (s.ant a).link = .absent → Told s t 0x16 [0]) ∧
        ((s.ant a).loopback ≠ .off → (s.ant a).link ≠ .absent →
          DoneThen s t 0x16 [1] (r.taken a (s.atWork 0x16)))

/-- R60, R62, R74: a score moves toward its sample by the smoothing shift; a candidate update rescores, adds or replaces a
candidate, a Seek replaces the last one whatever its score, and a lead that leaves the list is reset. -/
def Obligations.ScoresAndCandidatesFollowTheSamples : Prop :=
  (∀ (k : Nat) (score sample : Byte),
    (k = 0 → smooth k score sample = sample) ∧
    (1 ≤ k → k ≤ 7 →
      let d : Int := (sample.toNat : Int) - score.toNat
      let step : Int := d.tdiv (2 ^ k)
      ((smooth k score sample).toNat : Int) = score.toNat + (if step = 0 then d.sign else step)) ∧
    (8 ≤ k → smooth k score sample = score)) ∧
  ∀ (v : Survey) (a : AntennaNo) (q : Byte) (k ms : Nat), ListKept v.candidates →
    ListKept (v.update a q k ms).candidates ∧ ListKept (v.force a q ms).candidates ∧
    (∀ x ∈ v.candidates, x.antenna = a →
      let others := v.candidates.filter (·.antenna ≠ a)
      (v.update a q k ms).candidates.Perm (⟨a, smooth k x.score q, ms⟩ :: others) ∧
      (v.force a q ms).candidates.Perm (⟨a, q, ms⟩ :: others) ∧
      v.update a q k ms = { v with candidates := (v.update a q k ms).candidates } ∧
      v.force a q ms = { v with candidates := (v.force a q ms).candidates }) ∧
    ((∀ x ∈ v.candidates, x.antenna ≠ a) → v.candidates.length < 4 →
      (v.update a q k ms).candidates.Perm (⟨a, q, ms⟩ :: v.candidates) ∧
      v.update a q k ms = { v with candidates := (v.update a q k ms).candidates } ∧ v.force a q ms = v.update a q k ms) ∧
    ∀ last, (∀ x ∈ v.candidates, x.antenna ≠ a) → v.candidates.length = 4 → v.candidates.getLast? = some last →
      (q ≤ last.score → v.update a q k ms = v) ∧
      (last.score < q → v.update a q k ms = v.force a q ms) ∧
      (v.force a q ms).candidates.Perm (⟨a, q, ms⟩ :: v.candidates.dropLast) ∧
      v.force a q ms =
        { v with candidates := (v.force a q ms).candidates,
                 lead := if v.lead = some last.antenna then none else v.lead,
                 leadCount := if v.lead = some last.antenna then 0 else v.leadCount }

/-- R58, R59, R61: a Sighting is a sample of the serving score or of a candidate, by its entry's state; a compact one that
names no beltpack is a stray, and an unknown ID is passed over. -/
def Obligations.SightingsAreDigested : Prop :=
  ∀ (s : State) (a : AntennaNo),
    (∀ slot q, (∀ sl : SlotNo, slot = byte sl → s.slot a sl = .free) → s.takeSighting a (.compact slot q) = s.strayed) ∧
    (∀ id q, UnknownId s id → s.takeSighting a (.extended id q) = s) ∧
    ∀ f q e x, Sights s a f q e x →
      let here : Prop := ∃ sl, x.serving = some (a, sl)
      let k := (s.policy.get 2).toNat
      let v : Survey := if x.servedAt a then
          { x.survey with servingScore := some (match x.survey.servingScore with | none => q | some old => smooth k old q) }
        else x.survey.update a q k ((s.policy.get 9).toNat * 100)
      let u : State := { s with roster := s.roster.set e (some { x with survey := v }) }
      (x.servedAt a = true ↔ here) ∧
      (x.state = .unattached → s.takeSighting a f = s) ∧
      (x.state = .attaching ∨ x.state = .moving → s.takeSighting a f = u) ∧
      (x.state = .lost → s.takeSighting a f = u.considerEvacuation e) ∧
      (x.state = .served → here → s.takeSighting a f = ((u.considerDrain e).considerFade e).evaluate e) ∧
      (x.state = .served → ¬ here → s.takeSighting a f = (u.considerDrain e).evaluate e)

/-- R65, R67 to R71: what follows a Sighting: the best eligible target, the Drain, Fade and Evacuation requests, and the
survey evaluation with its lead and its Survey request. -/
def Obligations.SightingsRaiseTheirRequests : Prop :=
  ∀ (s : State) (e : EntryNo) (x : Entry), s.entry e = some x →
    let eligible (excluded : AntennaSet) (c : Candidate) : Prop :=
      (s.ant c.antenna).open = true ∧ (s.policy.get 4).toNat ≤ c.score.toNat ∧ excluded.getLsbD c.antenna = false
    let fades : Prop := (∃ v, x.survey.servingScore = some v ∧ v.toNat < (s.policy.get 3).toNat) ∧
      s.bestTarget e 0 ≠ none ∧ x.pinned = false ∧ x.posted = none ∧ x.context = none ∧
      ∀ r, s.queue.find? (·.entry = e) = some r → r.cause = .survey
    let moves : Prop := x.context = none ∧ ¬ HasRequest s e ∧ s.bestTarget e 0 ≠ none
    let draining : Prop := ∃ a sl, x.serving = some (a, sl) ∧ (s.ant a).admin = .draining
    let survey (v : Survey) : State := { s with roster := s.roster.set e (some { x with survey := v }) }
    let noLead : Survey := { x.survey with lead := none, leadCount := 0 }
    (∀ excluded before c after, x.survey.candidates = before ++ c :: after → (∀ b ∈ before, ¬ eligible excluded b) →
      eligible excluded c → s.bestCandidate e excluded = some c ∧ s.bestTarget e excluded = some c.antenna) ∧
    (∀ excluded, (∀ c ∈ x.survey.candidates, ¬ eligible excluded c) →
      s.bestCandidate e excluded = none ∧ s.bestTarget e excluded = none) ∧
    (∀ a sl, x.serving = some (a, sl) → (s.ant a).admin = .draining → x.context = none → ¬ HasRequest s e →
      s.bestTarget e 0 ≠ none → s.considerDrain e = s.raiseRequest e ⟨.drain, none, BitVec.twoPow 24 a⟩) ∧
    (¬ draining ∨ x.context ≠ none ∨ HasRequest s e ∨ s.bestTarget e 0 = none → s.considerDrain e = s) ∧
    (fades → s.considerFade e = s.raiseRequest e ⟨.fade, none, 0⟩) ∧
    (¬ fades → s.considerFade e = s) ∧
    (moves → s.considerEvacuation e = s.raiseRequest e ⟨.evacuation, none, 0⟩) ∧
    (¬ moves → s.considerEvacuation e = s) ∧
    let suppressed : Prop := x.pinned = true ∨ x.posted ≠ none ∨ x.context ≠ none ∨ HasRequest s e ∨
      x.settleTimer ≠ none ∨ draining ∨ x.survey.servingScore = none
    (suppressed → s.evaluate e = survey noLead) ∧
    (¬ suppressed → s.bestCandidate e 0 = none → s.evaluate e = survey noLead) ∧
    ∀ c score, ¬ suppressed → s.bestCandidate e 0 = some c → x.survey.servingScore = some score →
      let n := if x.survey.lead = some c.antenna then x.survey.leadCount + 1 else 1
      (c.score.toNat < min 255 (score.toNat + (s.policy.get 0).toNat) → s.evaluate e = survey noLead) ∧
      (min 255 (score.toNat + (s.policy.get 0).toNat) ≤ c.score.toNat →
        (n < (s.policy.get 1).toNat + 1 →
          s.evaluate e = survey { x.survey with lead := some c.antenna, leadCount := n }) ∧
        ((s.policy.get 1).toNat + 1 ≤ n → s.evaluate e = (survey noLead).raiseRequest e ⟨.survey, none, 0⟩))

/-- R12, R72 to R77, R102: a Seek by a stranger, and by a beltpack in each state. That the state held when the Seek is taken
decides, also after a window expiry that ended the transaction (R112), is the model's reading (log entry 29). -/
def Obligations.SeeksAreAnswered : Prop :=
  ∀ (s : State) (a : AntennaNo) (id : BeltpackId) (q : Byte),
    (id = 0x000000 ∨ id = 0xFFFFFF → s.takeSeek a id q = s.strayed) ∧
    (id ≠ 0x000000 → id ≠ 0xFFFFFF →
      (UnknownId s id → id ∈ s.strangers → s.takeSeek a id q = s) ∧
      (UnknownId s id → id ∉ s.strangers → s.takeSeek a id q =
        { s with strangers := (if s.strangers.length < 8 then s.strangers else s.strangers.drop 1) ++ [id],
                 link := s.link.queueNotice (.strangerHeard id a q) }) ∧
      ∀ e x, HasId s id e x →
        let ms := (s.policy.get 9).toNat * 100
        let unserved : Survey := { x.survey with servingScore := none, lead := none, leadCount := 0 }
        let lost : Entry :=
          { x with state := .lost, serving := none, settleTimer := none, survey := unserved.force a q ms,
                   lostTimer := some ((s.policy.get 10).toNat * 1000) }
        (x.admission = .barred → s.takeSeek a id q = s) ∧
        (x.admission = .admitted →
          (x.context = none → x.state = .unattached →
            s.takeSeek a id q = s.raiseRequest e ⟨.attach, some a, 0⟩) ∧
          (x.context = none → x.state = .lost → s.takeSeek a id q = State.raiseRequest
            { s with roster := s.roster.set e (some { x with survey := x.survey.force a q ms }) } e
            ⟨.evacuation, some a, 0⟩) ∧
          (∀ sl, x.context = none → x.state = .served → x.serving = some (a, sl) →
            s.takeSeek a id q = s.takeSighting a (.extended id q)) ∧
          (∀ b sl, x.context = none → x.state = .served → x.serving = some (b, sl) → b ≠ a →
            s.takeSeek a id q = State.raiseRequest
              { s.releaseSlot b sl with
                roster := s.roster.set e (some lost), link := s.link.queueNotice (.lost e id (some b)) } e
              ⟨.evacuation, some a, 0⟩) ∧
          ∀ c y, x.context = some c → s.ctx c = some y →
            let restarts : Prop := y.target = some a ∧ y.phase = .arrival ∧ y.restartUsed = false
            (¬ restarts → s.takeSeek a id q = s.takeSighting a (.extended id q)) ∧
            ∀ sl z, restarts → y.targetSlot = some sl → s.entry y.entry = some z →
              let y' : Context :=
                { y with restartUsed := true, arrivalTimer := some (((s.policy.get 6).toNat + 1) * 4),
                         awaited := some ⟨.summon, a⟩ }
              let restarted : State := { s with contexts := s.contexts.set c (some y') }
              s.takeSeek a id q =
                (restarted.postOrder a ⟨.summon, z.id, sl, .context c⟩).takeSighting a (.extended id q)))

/-- R8, R48, R64, R100, R101, R103, R104, R158: the Arrival that a transaction waits for makes the beltpack Served and
begins the Release phase or completes the transaction; a fallback to the source is NOARRIVAL; any other is a stray. -/
def Obligations.ArrivalsServeTheBeltpack : Prop :=
  ∀ (s : State) (a : AntennaNo) (id : BeltpackId) (slot : Byte),
    (UnknownId s id ∨ 8 ≤ slot.toNat → s.takeArrival a id slot = s.strayed) ∧
    (∀ e x, HasId s id e x → x.context = none → s.takeArrival a id slot = s.strayed) ∧
    ∀ e x c y, ∀ sl : SlotNo, HasId s id e x → x.context = some c → s.ctx c = some y → slot = byte sl →
      let awaited : Prop := y.target = some a ∧ y.targetSlot = some sl ∧
        (y.phase = .cue ∨ y.phase = .summon ∨ y.phase = .arrival)
      let fallback : Prop := y.kind = .move ∧ y.source = some (a, sl) ∧ y.phase = .arrival
      (¬ awaited → fallback → s.takeArrival a id slot = s.dispose c 0x08) ∧
      (¬ awaited → ¬ fallback → s.takeArrival a id slot = s.strayed) ∧
      ∀ z, awaited → s.entry y.entry = some z →
        let score := (z.survey.candidates.find? (·.antenna = a)).map (·.score)
        let rest := z.survey.candidates.filter (·.antenna ≠ a)
        let arrived (former : Option (AntennaNo × Byte)) : Entry :=
          { z with state := .served, serving := some (a, sl), lostTimer := none, windowExpired := false,
                   survey := ⟨score, rest, none, 0, former⟩ }
        let occupied := s.antennas.set a { s.ant a with slots := (s.ant a).slots.set sl (.occupied y.entry) }
        let told := if z.state = .attaching ∨ z.state = .lost then s.link.queueNotice (.attached y.entry z.id a sl)
          else s.link
        (∀ b bsl, y.kind = .move → y.source = some (b, bsl) → s.takeArrival a id slot = State.releaseSlot
          { s.stopAwaiting c with
            contexts := s.contexts.set c (some { y with arrivalTimer := none, phase := .release,
                                                        awaited := some ⟨.release, b⟩ }),
            antennas := occupied, link := told,
            roster := s.roster.set y.entry (some (arrived (z.survey.servingScore.map fun v => (b, v)))) } b bsl) ∧
        (y.kind ≠ .move → y.source = none → s.takeArrival a id slot =
          { s.stopAwaiting c with
            contexts := s.contexts.set c none, antennas := occupied,
            link := told.queueNotice (.handoffDone y.entry z.id y.cause y.kind none (some a) (some sl)),
            roster := s.roster.set y.entry (some { arrived none with
              context := none,
              settleTimer := if (s.policy.get 5).toNat = 0 then none else some ((s.policy.get 5).toNat * 100) }) })

/-- R14, R64, R104: a Move completes in the order of R104: the former serving antenna joins the candidates, the entry is
settled or, Lost with its window expired, goes off air, Handoff Done is queued, and the context is freed. -/
def Obligations.CompletionFreesTheContext : Prop :=
  ∀ (s : State) (c : ContextNo) (y : Context) (z : Entry), s.ctx c = some y → s.entry y.entry = some z →
    let v := z.survey.completeMove ((s.policy.get 9).toNat * 100)
    let done : Notice := .handoffDone y.entry z.id y.cause y.kind (y.source.map (·.1)) y.target y.targetSlot
    let freed (x : Entry) (l : HostLink) : State :=
      { s with contexts := s.contexts.set c none, roster := s.roster.set y.entry (some x), link := l }
    (z.survey.former = none → v = z.survey) ∧
    (∀ a score, z.survey.former = some (a, score) → (∀ k ∈ z.survey.candidates, k.antenna ≠ a) →
      v = { z.survey with former := none }.update a score 0 ((s.policy.get 9).toNat * 100)) ∧
    (∀ a score, ∀ k ∈ z.survey.candidates, z.survey.former = some (a, score) → k.antenna = a →
      v = { z.survey with former := none }) ∧
    (z.state = .served → s.complete c = freed
      { z with context := none, survey := v,
               settleTimer := if (s.policy.get 5).toNat = 0 then none else some ((s.policy.get 5).toNat * 100) }
      (s.link.queueNotice done)) ∧
    (z.state = .lost → z.windowExpired = false →
      s.complete c = freed { z with context := none, survey := v } (s.link.queueNotice done)) ∧
    (z.state = .lost → z.windowExpired = true → s.complete c = freed
      { z with state := .unattached, serving := none, context := none, settleTimer := none, lostTimer := none,
               windowExpired := false, survey := ⟨none, [], none, 0, none⟩ }
      ((s.link.queueNotice (.unattached y.entry z.id .window)).queueNotice done))

/-- R17, R53, R109: a Sign-off takes a known beltpack off air from any state: its transaction ends, its slots go to
Releasing, its request is removed, and its admission and posting stay. -/
def Obligations.SignOffTakesOffAir : Prop :=
  ∀ (s : State) (id : BeltpackId),
    (UnknownId s id → s.takeSignOff id = s) ∧
    ∀ e x, HasId s id e x →
      let u : State := match x.context with
        | none => s
        | some c => { s.giveUpAttempt c with contexts := (s.giveUpAttempt c).contexts.set c none }
      let v : State := match x.serving with
        | none => u
        | some (a, sl) => u.releaseSlot a sl
      (x.state = .unattached → s.takeSignOff id = { v with queue := s.queue.filter (·.entry ≠ e) }) ∧
      (x.state ≠ .unattached → s.takeSignOff id =
        { v with queue := s.queue.filter (·.entry ≠ e), link := s.link.queueNotice (.unattached e id .signOff),
                 roster := s.roster.set e (some
                   { x with state := .unattached, serving := none, context := none, settleTimer := none,
                            lostTimer := none, windowExpired := false, survey := ⟨none, [], none, 0, none⟩ }) })

/-! ### Timers and the dispatch -/

/-- R13 to R15, R63, R86, R101: what the expiry of each timer does; an expiry of a timer that does not run does nothing (log
entry 2). -/
def Obligations.TimersExpire : Prop :=
  ∀ s : State,
    (∀ c y, s.ctx c = some y → y.arrivalTimer ≠ none → y.phase = .arrival →
      exec (.arrivalTimerExpiry c) s = .next (s.wake.dispose c 0x08).settle) ∧
    (∀ c, (∀ y, s.ctx c = some y → y.arrivalTimer = none ∨ y.phase ≠ .arrival) →
      exec (.arrivalTimerExpiry c) s = .next s.wake) ∧
    (∀ e x, s.entry e = some x →
      let become (y : Entry) : State := { s.wake with roster := s.roster.set e (some y) }
      (x.lostTimer = none → exec (.lostWindowExpiry e) s = .next s.wake) ∧
      (x.lostTimer ≠ none → x.context ≠ none →
        exec (.lostWindowExpiry e) s = .next (become { x with lostTimer := none, windowExpired := true })) ∧
      (x.lostTimer ≠ none → x.context = none → exec (.lostWindowExpiry e) s = .next
        { become { x with state := .unattached, serving := none, context := none, settleTimer := none, lostTimer := none,
                          windowExpired := false, survey := ⟨none, [], none, 0, none⟩ } with
          link := s.wake.link.queueNotice (.unattached e x.id .window), queue := s.queue.filter (·.entry ≠ e) }) ∧
      (exec (.settleTimerExpiry e) s = .next (become { x with settleTimer := none })) ∧
      ∀ a, let led : Prop := x.survey.lead = some a ∧ ∃ k ∈ x.survey.candidates, k.antenna = a
        exec (.candidateLifetimeExpiry e a) s = .next
          (become { x with survey := { x.survey with candidates := x.survey.candidates.filter (·.antenna ≠ a),
                                                     lead := if led then none else x.survey.lead,
                                                     leadCount := if led then 0 else x.survey.leadCount } })) ∧
    (∀ e a, s.entry e = none → exec (.lostWindowExpiry e) s = .next s.wake ∧
      exec (.settleTimerExpiry e) s = .next s.wake ∧ exec (.candidateLifetimeExpiry e a) s = .next s.wake) ∧
    ∀ e, exec (.notBeforeExpiry e) s = .next (State.settle
      { s.wake with queue := s.queue.map fun r => if r.entry = e then { r with notBefore := none } else r })

/-- R7, R88, R92, R93: the dispatch hands the first request that may go to the lowest free context, again and again until no
context is free or no request may go; a request handed over takes its context, changes its entry's state, and chooses its
target. -/
def Obligations.DispatchRunsUntilNoRequestMayGo : Prop :=
  (∀ s : State, exec .dispatch s = .next s.wake.settle) ∧
  (∀ s : State, Rested s.settle) ∧
  (∀ s : State, Rested s → s.settle = s) ∧
  ∀ (s : State) (c : ContextNo) (r : Request) (held later : List Request),
    s.ctx c = none → (∀ c' < c, s.ctx c' ≠ none) →
    s.queue = held ++ r :: later → (∀ h ∈ held, h.notBefore ≠ none) → r.notBefore = none →
    s.settle = (s.handOver c r).settle ∧
    ∀ x, s.entry r.entry = some x →
      let kind : Kind := match x.state with | .served => .move | .lost => .summon | _ => .attach
      let y : Context :=
        { entry := r.entry, cause := r.cause, cls := r.cls, kind := kind,
          source := if x.state = .served then x.serving else none, explicit := r.explicit, target := none,
          targetSlot := none, phase := .reserve, tried := 0, exclusion := r.exclusion, retry := r.retry,
          displaced := r.displaced, restartUsed := false, arrivalTimer := none, awaited := none }
      let z : Entry :=
        { x with context := some c, current := if r.retry = 0 ∧ r.displaced = false then 0 else x.current,
                 state := (match x.state with | .unattached => .attaching | .served => .moving | st => st),
                 settleTimer := if x.state = .served then none else x.settleTimer }
      let u : State :=
        { s with queue := s.queue.filter (·.entry ≠ r.entry), contexts := s.contexts.set c (some y),
                 roster := s.roster.set r.entry (some z) }
      s.handOver c r =
        if (u.tryTarget c true).2 = 0 then (u.tryTarget c true).1
        else (u.tryTarget c true).1.dispose c (u.tryTarget c true).2

/-- R94 to R96: the explicit target, where it is not excluded, or the best eligible one is chosen and tested; an antenna with
room for the beltpack is claimed and a Reserve is posted there. -/
def Obligations.TargetsAreChosenAndTested : Prop :=
  ∀ (s : State) (c : ContextNo) (y : Context) (x : Entry) (first : Bool), s.ctx c = some y → s.entry y.entry = some x →
    let become (y' : Context) : State := { s with contexts := s.contexts.set c (some y') }
    let explicit : Option AntennaNo := y.explicit.filter fun a => first && !y.exclusion.getLsbD a
    let chosen := explicit.or (s.bestTarget y.entry (y.exclusion ||| y.tried))
    (chosen = none → s.tryTarget c first = (become { y with target := none }, 0x80)) ∧
    ∀ a, chosen = some a →
      let groups := x.groupA.toList ++ x.groupB.toList
      let lanes := (s.ant a).lanes
      let noSlot : Prop := (∀ sl, s.slot a sl ≠ .free) ∨
        ∃ sl, s.slot a sl = .reserved y.entry ∨ s.slot a sl = .occupied y.entry ∨ s.slot a sl = .releasing y.entry
      let noLane : Prop := ((List.finRange 4).filter fun i => lanes.get i = none).length <
        (groups.filter fun g => NoLaneFor lanes g).length
      ((s.ant a).open = false → s.tryTarget c first = (become { y with target := some a }, 0x80)) ∧
      ((s.ant a).open = true → noSlot → noLane → s.tryTarget c first = (become { y with target := some a }, 0x60)) ∧
      ((s.ant a).open = true → noSlot → ¬ noLane → s.tryTarget c first = (become { y with target := some a }, 0x40)) ∧
      ((s.ant a).open = true → ¬ noSlot → noLane → s.tryTarget c first = (become { y with target := some a }, 0x20)) ∧
      ∀ sl, (s.ant a).open = true → ¬ noSlot → ¬ noLane → s.slot a sl = .free → (∀ sl' < sl, s.slot a sl' ≠ .free) →
        let y' : Context := { y with target := some a, targetSlot := some sl, awaited := some ⟨.reserve, a⟩ }
        let u : State := { s.claim a sl y.entry groups with contexts := s.contexts.set c (some y') }
        s.tryTarget c first = (u.postOrder a ⟨.reserve x.groupA x.groupB, x.id, sl, .context c⟩, 0)

/-! ### Slots, lanes and the queue -/

/-- R45, R47, R49, R51: claiming, releasing and freeing a slot, and how a group is counted and uncounted. -/
def Obligations.SlotsAndLanesAreAccounted : Prop :=
  (∀ (t : Lanes) (g : Group) (i : LaneNo),
    (∀ l, t.get i = some l → l.group = g → (∀ j m, t.get j = some m → m.group = g → j = i) →
      t.count g = t.set i (some { l with users := l.users + 1 }) ∧
      t.uncount g = t.set i (if l.users ≤ 1 then none else some { l with users := l.users - 1 })) ∧
    (NoLaneFor t g → t.get i = none → (∀ j < i, t.get j ≠ none) → t.count g = t.set i (some ⟨g, 1⟩)) ∧
    (NoLaneFor t g → t.uncount g = t)) ∧
  ∀ (s : State) (a : AntennaNo) (sl : SlotNo) (e : EntryNo) (x : Entry) (groups : List Group),
    s.entry e = some x →
    let slot (v : Slot) (lanes : Lanes) : State :=
      { s with antennas := s.antennas.set a { s.ant a with slots := (s.ant a).slots.set sl v, lanes := lanes } }
    (s.claim a sl e groups = slot (.reserved e) (groups.foldl Lanes.count (s.ant a).lanes)) ∧
    (s.slot a sl = .reserved e ∨ s.slot a sl = .occupied e → s.releaseSlot a sl =
      (slot (.releasing e) (s.ant a).lanes).postOrder a ⟨.release, x.id, sl, .slot sl⟩) ∧
    (s.slot a sl = .free ∨ s.slot a sl = .releasing e → s.releaseSlot a sl = s) ∧
    (s.slot a sl = .free → s.freeSlot a sl = s) ∧
    (s.slot a sl = .reserved e ∨ s.slot a sl = .occupied e ∨ s.slot a sl = .releasing e →
      s.freeSlot a sl = slot .free ((x.groupA.toList ++ x.groupB.toList).foldl Lanes.uncount (s.ant a).lanes))

/-- R80 to R83, R85, R87: a raise is dropped, merged, placed by its key, or set against the last request of a full queue; a
request that enters takes the next entry order. -/
def Obligations.RaisesEnterTheQueueByTheirKey : Prop :=
  ∀ s : State, QueueInOrder s →
    (∀ r, r.order = s.nextOrder →
      let t := s.enqueue r
      t.queue.Perm (r :: s.queue) ∧ t.queue.Pairwise KeyBefore ∧
      t = { s with queue := t.queue, nextOrder := s.nextOrder + 1 }) ∧
    ∀ e x, ∀ w : Raise, s.entry e = some x →
      let t := s.raiseRequest e w
      let new : Request :=
        { entry := e, cause := w.cause, cls := x.cls, explicit := w.explicit, exclusion := w.exclusion, retry := 0,
          displaced := false, notBefore := none, order := s.nextOrder }
      (x.context ≠ none → t = s) ∧
      (x.context = none → t.queue.Pairwise KeyBefore ∧
        (∀ r, s.queue.find? (·.entry = e) = some r →
          let both : Request := { r with explicit := w.explicit.or r.explicit, exclusion := r.exclusion ||| w.exclusion }
          let merged : Request := if w.cause.rank < r.cause.rank
            then { both with cause := w.cause, notBefore := none, retry := 0, displaced := false } else both
          t.queue.Perm (merged :: s.queue.filter (·.entry ≠ e)) ∧ t = { s with queue := t.queue }) ∧
        (¬ HasRequest s e → s.queue.length < 16 → t = s.enqueue new) ∧
        ∀ last, ¬ HasRequest s e → s.queue.length = 16 → s.queue.getLast? = some last →
          (KeyBefore last new → t = s) ∧
          (KeyBefore new last →
            t = State.enqueue { s with queue := s.queue.filter (·.entry ≠ last.entry) } new))

/-! ### Conditions and dispositions -/

/-- R105, R118, R119, R122, R125, R129: a disposal adds its conditions to the three sets, and its reported condition is posted
where its flag is set, or goes by the fallback table; a next disposition that fails is disposed of in its turn. -/
def Obligations.DisposalFollowsTheTable : Prop :=
  (∀ (s : State) (a : AntennaNo) (cls : ClassNo) (v : EntryNo),
    let stands (sl : SlotNo) (v : EntryNo) (x : Entry) : Prop :=
      s.slot a sl = .occupied v ∧ s.entry v = some x ∧ x.state = .served ∧ x.context = none ∧ x.posted = none ∧
        x.pinned = false ∧ cls < x.cls
    s.victim a cls = some v ↔ ∃ sl x, stands sl v x ∧
      ∀ sl' v' x', stands sl' v' x' → x'.cls < x.cls ∨ x'.cls = x.cls ∧ sl' ≤ sl) ∧
  ∀ (s : State) (c : ContextNo) (y : Context) (z : Entry) (found : ConditionSet) (k : Condition),
    s.ctx c = some y → s.entry y.entry = some z →
    let n := k.code.toNat - 1
    found.getLsbD n = true → (∀ m < n, found.getLsbD m = false) →
    let u : State :=
      { s with roster := s.roster.set y.entry
                 (some { z with current := z.current ||| found, accrued := z.accrued ||| found }),
               link := { s.link with domainAccrued := s.link.domainAccrued ||| found } }
    let report (d : Disposition) : State :=
      if n < 2 ∧ (s.policy.get 15).toNat = 1 then
        { u with link := u.link.queueNotice (.conditionReport y.entry z.id k (z.current ||| found) y.target d) }
      else u
    let stop : State := ((report .ended).giveUpAttempt c).endTransaction c
    let next : State :=
      let r := ((report .next).moveOn c y).tryTarget c false
      if r.2 = 0 then r.1 else r.1.dispose c r.2
    let mode := (s.policy.get 11).toNat
    let held : Prop := 2 ≤ n ∧ (s.policy.get 14).getLsbD (n - 2) = true
    let room : Prop := s.queue.length < 16
    let t := s.dispose c found
    (held → t = u.postFault c y k) ∧
    (k = .srcLost → t = (report .convert).convert c y) ∧
    (¬ held → k ≠ .srcLost →
      (mode = 0 → t = stop) ∧
      (mode = 3 → y.retry + 1 ≤ (s.policy.get 13).toNat + 1 → room → t = (report .reEnter).reEnter c y) ∧
      (mode = 3 → ¬ (y.retry + 1 ≤ (s.policy.get 13).toNat + 1 ∧ room) → t = stop) ∧
      (mode = 1 ∨ mode = 2 → k = .noTarget → t = stop) ∧
      (mode = 1 ∨ mode = 2 ∧ k ≠ .noSlot → k ≠ .noTarget → t = next) ∧
      (mode = 2 → k = .noSlot →
        (y.displaced = true ∨ y.cause = .evict ∨ (∀ a, y.target = some a → s.victim a y.cls = none) → t = next) ∧
        ∀ a v, y.displaced = false → y.cause ≠ .evict → y.target = some a → s.victim a y.cls = some v →
          (room → t = (report .reEnter).displace c y v) ∧ (¬ room → t = stop)))

/-- R9, R52, R85, R95, R106, R107, R120, R121, R123, R124, R126 to R128: what each disposition does to the context, the entry,
the slot, the queue and the notices. That a conversion and the end of a transaction keep the lead is the model's reading (log
entry 17). -/
def Obligations.DispositionsActAsNamed : Prop :=
  ∀ (s : State) (c : ContextNo) (y : Context) (z : Entry), s.ctx c = some y → s.entry y.entry = some z →
    let become (y' : Context) (u : State) : State := { u with contexts := s.contexts.set c (some y') }
    let rest : Context := { y with arrivalTimer := none, awaited := none, target := none, targetSlot := none }
    let ended (x : Entry) (l : HostLink) : State :=
      { s with contexts := s.contexts.set c none, roster := s.roster.set y.entry (some x), link := l }
    let offAir : Entry :=
      { z with state := .unattached, serving := none, context := none, settleTimer := none, lostTimer := none,
               windowExpired := false, survey := ⟨none, [], none, 0, none⟩ }
    let given (retry : Nat) (displaced : Bool) : Request :=
      { entry := y.entry, cause := y.cause, cls := y.cls, explicit := y.explicit, exclusion := y.exclusion,
        retry := retry, displaced := displaced, notBefore := some ((s.policy.get 12).toNat * 10), order := s.nextOrder }
    (y.awaited = none → s.stopAwaiting c = s) ∧
    (∀ w, y.awaited = some w →
      let p := s.port w.port
      let left (o : Order) : Order := if o.poster = .context c then { o with poster := .nobody } else o
      let leftExchange (x : Exchange) : Exchange := match x.sent with
        | .probe => x
        | .order o => { x with sent := .order (left o) }
      let p' : Port := { p with waiting := p.waiting.filter (·.poster ≠ .context c), fifo := p.fifo.map left,
                                inFlight := p.inFlight.map leftExchange }
      s.stopAwaiting c = become { y with awaited := none } { s with ports := s.ports.set w.port p' }) ∧
    (∀ a sl, y.target = some a → y.targetSlot = some sl → s.slot a sl = .reserved y.entry →
      s.giveUpAttempt c = become rest ((s.stopAwaiting c).releaseSlot a sl)) ∧
    ((∀ a sl, y.target = some a → y.targetSlot = some sl → s.slot a sl ≠ .reserved y.entry) →
      s.giveUpAttempt c = become rest (s.stopAwaiting c)) ∧
    (z.state = .moving → s.endTransaction c = ended { z with context := none, state := .served } s.link) ∧
    (z.state = .attaching → y.kind = .attach → s.endTransaction c = ended offAir s.link) ∧
    (z.state = .attaching → y.kind ≠ .attach → s.endTransaction c =
      ended { z with context := none, state := .lost, lostTimer := some ((s.policy.get 10).toNat * 1000) }
        (s.link.queueNotice (.lost y.entry z.id none))) ∧
    (z.state = .lost → z.windowExpired = false → s.endTransaction c = ended { z with context := none } s.link) ∧
    (z.state = .lost → z.windowExpired = true →
      s.endTransaction c = ended offAir (s.link.queueNotice (.unattached y.entry z.id .window))) ∧
    (∀ k, s.postFault c y k = State.endTransaction
      { s.giveUpAttempt c with
        roster := s.roster.set y.entry (some { z with posted := some ⟨k, z.current, y.target, y.cause⟩ }),
        link := s.link.queueNotice (.handoffHeld y.entry z.id k z.current y.target y.cause) } c) ∧
    (s.moveOn c y = become { rest with phase := .reserve, tried := y.tried ||| optionBit y.target } (s.giveUpAttempt c)) ∧
    (s.reEnter c y = ((s.giveUpAttempt c).enqueue (given (y.retry + 1) y.displaced)).endTransaction c) ∧
    (∀ v, s.displace c y v = (((s.giveUpAttempt c).enqueue (given y.retry true)).endTransaction c).raiseRequest v
      ⟨.evict, none, optionBit y.target⟩) ∧
    let z' : Entry := { z with state := .attaching, serving := none, survey := { z.survey with servingScore := none } }
    let y' : Context := { y with kind := .summon, source := none }
    (y.phase ≠ .cue →
      s.convert c y = become y' { s with roster := s.roster.set y.entry (some z') }) ∧
    ∀ a sl, y.phase = .cue → y.target = some a → y.targetSlot = some sl →
      s.convert c y = (become { y' with phase := .summon, awaited := some ⟨.summon, a⟩ }
        { s.stopAwaiting c with roster := s.roster.set y.entry (some z') }).postOrder a ⟨.summon, z.id, sl, .context c⟩

/-- R134 to R138, R141: the closing sweep clears the port, takes the slots in order, empties the lanes, completes a drain and
lets the port go on; and what it does for each slot by its state. That the port may begin a due probe at once is the model's
reading (log entry 20), and a slot whose beltpack has no transaction where one is expected, which no run reaches
(EveryStepKeepsTransactionsInOrder), is its choice (log entry 19). -/
def Obligations.SweepTakesEachSlotByItsState : Prop :=
  ∀ (s : State) (a : AntennaNo) (late : Option ContextNo),
    (let cleared : State :=
       { s with ports := s.ports.set a { s.port a with fifo := [], waiting := [], inFlight := none } }
     let swept : State := (List.finRange 8).foldl (State.sweepSlot a late) cleared
     let emptied : State :=
       { swept with antennas := swept.antennas.set a { swept.ant a with lanes := Vector.replicate 4 none } }
     s.closingSweep a late = (emptied.drainTest a .closing).beginExchange a) ∧
    ∀ sl : SlotNo,
      let f : State :=
        { s with antennas := s.antennas.set a { s.ant a with slots := (s.ant a).slots.set sl .free } }
      let joined (c : ContextNo) (k : ConditionSet) : ConditionSet := if late = some c then k ||| 0x04 else k
      (s.slot a sl = .free → s.sweepSlot a late sl = s) ∧
      ∀ e x, s.entry e = some x →
        let lost : State :=
          { f with
            roster := s.roster.set e (some
              { x with state := .lost, serving := none, settleTimer := none,
                       lostTimer := some ((s.policy.get 10).toNat * 1000),
                       survey := { x.survey with servingScore := none, lead := none, leadCount := 0 } }),
            link := s.link.queueNotice (.lost e x.id (some a)) }
        (s.slot a sl = .occupied e →
          (x.context = none → lost.bestTarget e 0 = none → s.sweepSlot a late sl = lost) ∧
          (x.context = none → lost.bestTarget e 0 ≠ none →
            s.sweepSlot a late sl = lost.raiseRequest e ⟨.evacuation, none, 0⟩) ∧
          ∀ c y, x.context = some c → s.ctx c = some y →
            (y.phase = .release → s.sweepSlot a late sl = lost) ∧
            (y.phase ≠ .release → s.sweepSlot a late sl = f.dispose c (joined c 0x01))) ∧
        (s.slot a sl = .reserved e →
          (x.context = none → s.sweepSlot a late sl = f) ∧
          ∀ c, x.context = some c → s.sweepSlot a late sl = f.dispose c (joined c 0x02)) ∧
        (s.slot a sl = .releasing e →
          (x.context = none → s.sweepSlot a late sl = f) ∧
          ∀ c y, x.context = some c → s.ctx c = some y →
            (y.phase = .release ∧ y.source = some (a, sl) → s.sweepSlot a late sl = f.complete c) ∧
            (¬ (y.phase = .release ∧ y.source = some (a, sl)) → s.sweepSlot a late sl = f))

/-! ### The whole part -/

/-- Events of the trunk, the timers and the dispatch leave the policy, the link's settings, the trunk's run, the loopback modes
and what the host has set in every entry as they are. -/
def Obligations.EventsKeepWhatTheHostHasSet : Prop :=
  ∀ (i : Instr) (s t : State), isEvent i = true → exec i s = .next t →
    t.policy = s.policy ∧ t.running = s.running ∧ t.pending = s.pending ∧ t.freeIndex = s.freeIndex ∧
    t.link.rate = s.link.rate ∧ t.link.mode = s.link.mode ∧ t.link.selection = s.link.selection ∧
    t.link.receiver = s.link.receiver ∧
    (∀ a, (t.ant a).loopback = (s.ant a).loopback) ∧
    (∀ e, s.entry e = none → t.entry e = none) ∧
    ∀ e x, s.entry e = some x → ∃ y, t.entry e = some y ∧ y.id = x.id ∧ y.cls = x.cls ∧ y.groupA = x.groupA ∧
      y.groupB = x.groupB ∧ y.pinned = x.pinned ∧ y.admission = x.admission

/-- R1, R2, R30, R31, R45, R62, R77, R78, R80, R155, R162, R170, R175: every step keeps the stores in order. -/
def Obligations.EveryStepKeepsTheStoresInOrder : Prop :=
  ∀ s t : State, InOrder s → step s = .next t → InOrder t

/-- R2, R44, R45, R80, R91, R95, R106: every step keeps slots, lanes, transactions, roster entries, requests and awaited orders
in agreement: entry and context name each other, an Occupied slot is the one its beltpack's serving reference names, a
Reserved slot is the target of its transaction before the Arrival, a lane counts the slots whose beltpacks list its group, and
a beltpack has one request at most. -/
def Obligations.EveryStepKeepsTransactionsInOrder : Prop :=
  ∀ s t : State, InOrder s → TransactionsInOrder s → step s = .next t → TransactionsInOrder t

/-- The state after reset has its stores in order, and its slots, transactions and requests agree. -/
def Obligations.ResetStateIsInOrder : Prop := InOrder State.reset ∧ TransactionsInOrder State.reset
end

