-- ==== Sys2Proof/Laws/State.lean ====
section
/-! SUPPORT. The fields of a state after each update, and reads after writes. -/

namespace Sys2Proof.Machine

variable (s : State)

/-! ### One store changed, the others kept -/

@[simp] theorem State.mapLink_link (f : HostLink → HostLink) : (s.mapLink f).link = f s.link := rfl
@[simp] theorem State.mapLink_policy (f : HostLink → HostLink) : (s.mapLink f).policy = s.policy := rfl
@[simp] theorem State.mapLink_roster (f : HostLink → HostLink) : (s.mapLink f).roster = s.roster := rfl
@[simp] theorem State.mapLink_strangers (f : HostLink → HostLink) : (s.mapLink f).strangers = s.strangers := rfl
@[simp] theorem State.mapLink_queue (f : HostLink → HostLink) : (s.mapLink f).queue = s.queue := rfl
@[simp] theorem State.mapLink_nextOrder (f : HostLink → HostLink) : (s.mapLink f).nextOrder = s.nextOrder := rfl
@[simp] theorem State.mapLink_contexts (f : HostLink → HostLink) : (s.mapLink f).contexts = s.contexts := rfl
@[simp] theorem State.mapLink_running (f : HostLink → HostLink) : (s.mapLink f).running = s.running := rfl
@[simp] theorem State.mapLink_antennas (f : HostLink → HostLink) : (s.mapLink f).antennas = s.antennas := rfl
@[simp] theorem State.mapLink_ports (f : HostLink → HostLink) : (s.mapLink f).ports = s.ports := rfl
@[simp] theorem State.mapLink_freeIndex (f : HostLink → HostLink) : (s.mapLink f).freeIndex = s.freeIndex := rfl
@[simp] theorem State.mapLink_pending (f : HostLink → HostLink) : (s.mapLink f).pending = s.pending := rfl

@[simp] theorem State.putEntry_link (e : EntryNo) (x : Option Entry) : (s.putEntry e x).link = s.link := rfl
@[simp] theorem State.putEntry_policy (e : EntryNo) (x : Option Entry) : (s.putEntry e x).policy = s.policy := rfl
@[simp] theorem State.putEntry_strangers (e : EntryNo) (x : Option Entry) : (s.putEntry e x).strangers = s.strangers := rfl
@[simp] theorem State.putEntry_queue (e : EntryNo) (x : Option Entry) : (s.putEntry e x).queue = s.queue := rfl
@[simp] theorem State.putEntry_nextOrder (e : EntryNo) (x : Option Entry) : (s.putEntry e x).nextOrder = s.nextOrder := rfl
@[simp] theorem State.putEntry_contexts (e : EntryNo) (x : Option Entry) : (s.putEntry e x).contexts = s.contexts := rfl
@[simp] theorem State.putEntry_running (e : EntryNo) (x : Option Entry) : (s.putEntry e x).running = s.running := rfl
@[simp] theorem State.putEntry_antennas (e : EntryNo) (x : Option Entry) : (s.putEntry e x).antennas = s.antennas := rfl
@[simp] theorem State.putEntry_ports (e : EntryNo) (x : Option Entry) : (s.putEntry e x).ports = s.ports := rfl
@[simp] theorem State.putEntry_freeIndex (e : EntryNo) (x : Option Entry) : (s.putEntry e x).freeIndex = s.freeIndex := rfl
@[simp] theorem State.putEntry_pending (e : EntryNo) (x : Option Entry) : (s.putEntry e x).pending = s.pending := rfl

@[simp] theorem State.putCtx_link (c : ContextNo) (x : Option Context) : (s.putCtx c x).link = s.link := rfl
@[simp] theorem State.putCtx_policy (c : ContextNo) (x : Option Context) : (s.putCtx c x).policy = s.policy := rfl
@[simp] theorem State.putCtx_roster (c : ContextNo) (x : Option Context) : (s.putCtx c x).roster = s.roster := rfl
@[simp] theorem State.putCtx_strangers (c : ContextNo) (x : Option Context) : (s.putCtx c x).strangers = s.strangers := rfl
@[simp] theorem State.putCtx_queue (c : ContextNo) (x : Option Context) : (s.putCtx c x).queue = s.queue := rfl
@[simp] theorem State.putCtx_nextOrder (c : ContextNo) (x : Option Context) : (s.putCtx c x).nextOrder = s.nextOrder := rfl
@[simp] theorem State.putCtx_running (c : ContextNo) (x : Option Context) : (s.putCtx c x).running = s.running := rfl
@[simp] theorem State.putCtx_antennas (c : ContextNo) (x : Option Context) : (s.putCtx c x).antennas = s.antennas := rfl
@[simp] theorem State.putCtx_ports (c : ContextNo) (x : Option Context) : (s.putCtx c x).ports = s.ports := rfl
@[simp] theorem State.putCtx_freeIndex (c : ContextNo) (x : Option Context) : (s.putCtx c x).freeIndex = s.freeIndex := rfl
@[simp] theorem State.putCtx_pending (c : ContextNo) (x : Option Context) : (s.putCtx c x).pending = s.pending := rfl

@[simp] theorem State.mapAnt_link (a : AntennaNo) (f : Antenna → Antenna) : (s.mapAnt a f).link = s.link := rfl
@[simp] theorem State.mapAnt_policy (a : AntennaNo) (f : Antenna → Antenna) : (s.mapAnt a f).policy = s.policy := rfl
@[simp] theorem State.mapAnt_roster (a : AntennaNo) (f : Antenna → Antenna) : (s.mapAnt a f).roster = s.roster := rfl
@[simp] theorem State.mapAnt_strangers (a : AntennaNo) (f : Antenna → Antenna) : (s.mapAnt a f).strangers = s.strangers := rfl
@[simp] theorem State.mapAnt_queue (a : AntennaNo) (f : Antenna → Antenna) : (s.mapAnt a f).queue = s.queue := rfl
@[simp] theorem State.mapAnt_nextOrder (a : AntennaNo) (f : Antenna → Antenna) : (s.mapAnt a f).nextOrder = s.nextOrder := rfl
@[simp] theorem State.mapAnt_contexts (a : AntennaNo) (f : Antenna → Antenna) : (s.mapAnt a f).contexts = s.contexts := rfl
@[simp] theorem State.mapAnt_running (a : AntennaNo) (f : Antenna → Antenna) : (s.mapAnt a f).running = s.running := rfl
@[simp] theorem State.mapAnt_ports (a : AntennaNo) (f : Antenna → Antenna) : (s.mapAnt a f).ports = s.ports := rfl
@[simp] theorem State.mapAnt_freeIndex (a : AntennaNo) (f : Antenna → Antenna) : (s.mapAnt a f).freeIndex = s.freeIndex := rfl
@[simp] theorem State.mapAnt_pending (a : AntennaNo) (f : Antenna → Antenna) : (s.mapAnt a f).pending = s.pending := rfl

@[simp] theorem State.mapPort_link (a : AntennaNo) (f : Port → Port) : (s.mapPort a f).link = s.link := rfl
@[simp] theorem State.mapPort_policy (a : AntennaNo) (f : Port → Port) : (s.mapPort a f).policy = s.policy := rfl
@[simp] theorem State.mapPort_roster (a : AntennaNo) (f : Port → Port) : (s.mapPort a f).roster = s.roster := rfl
@[simp] theorem State.mapPort_strangers (a : AntennaNo) (f : Port → Port) : (s.mapPort a f).strangers = s.strangers := rfl
@[simp] theorem State.mapPort_queue (a : AntennaNo) (f : Port → Port) : (s.mapPort a f).queue = s.queue := rfl
@[simp] theorem State.mapPort_nextOrder (a : AntennaNo) (f : Port → Port) : (s.mapPort a f).nextOrder = s.nextOrder := rfl
@[simp] theorem State.mapPort_contexts (a : AntennaNo) (f : Port → Port) : (s.mapPort a f).contexts = s.contexts := rfl
@[simp] theorem State.mapPort_running (a : AntennaNo) (f : Port → Port) : (s.mapPort a f).running = s.running := rfl
@[simp] theorem State.mapPort_antennas (a : AntennaNo) (f : Port → Port) : (s.mapPort a f).antennas = s.antennas := rfl
@[simp] theorem State.mapPort_freeIndex (a : AntennaNo) (f : Port → Port) : (s.mapPort a f).freeIndex = s.freeIndex := rfl
@[simp] theorem State.mapPort_pending (a : AntennaNo) (f : Port → Port) : (s.mapPort a f).pending = s.pending := rfl

@[simp] theorem State.removeRequest_link (e : EntryNo) : (s.removeRequest e).link = s.link := rfl
@[simp] theorem State.removeRequest_policy (e : EntryNo) : (s.removeRequest e).policy = s.policy := rfl
@[simp] theorem State.removeRequest_roster (e : EntryNo) : (s.removeRequest e).roster = s.roster := rfl
@[simp] theorem State.removeRequest_strangers (e : EntryNo) : (s.removeRequest e).strangers = s.strangers := rfl
@[simp] theorem State.removeRequest_queue (e : EntryNo) : (s.removeRequest e).queue = dropRequest e s.queue := rfl
@[simp] theorem State.removeRequest_nextOrder (e : EntryNo) : (s.removeRequest e).nextOrder = s.nextOrder := rfl
@[simp] theorem State.removeRequest_contexts (e : EntryNo) : (s.removeRequest e).contexts = s.contexts := rfl
@[simp] theorem State.removeRequest_running (e : EntryNo) : (s.removeRequest e).running = s.running := rfl
@[simp] theorem State.removeRequest_antennas (e : EntryNo) : (s.removeRequest e).antennas = s.antennas := rfl
@[simp] theorem State.removeRequest_ports (e : EntryNo) : (s.removeRequest e).ports = s.ports := rfl
@[simp] theorem State.removeRequest_freeIndex (e : EntryNo) : (s.removeRequest e).freeIndex = s.freeIndex := rfl
@[simp] theorem State.removeRequest_pending (e : EntryNo) : (s.removeRequest e).pending = s.pending := rfl

@[simp] theorem State.enqueue_link (r : Request) : (s.enqueue r).link = s.link := rfl
@[simp] theorem State.enqueue_policy (r : Request) : (s.enqueue r).policy = s.policy := rfl
@[simp] theorem State.enqueue_roster (r : Request) : (s.enqueue r).roster = s.roster := rfl
@[simp] theorem State.enqueue_strangers (r : Request) : (s.enqueue r).strangers = s.strangers := rfl
@[simp] theorem State.enqueue_queue (r : Request) : (s.enqueue r).queue = placeRequest r s.queue := rfl
@[simp] theorem State.enqueue_nextOrder (r : Request) : (s.enqueue r).nextOrder = s.nextOrder + 1 := rfl
@[simp] theorem State.enqueue_contexts (r : Request) : (s.enqueue r).contexts = s.contexts := rfl
@[simp] theorem State.enqueue_running (r : Request) : (s.enqueue r).running = s.running := rfl
@[simp] theorem State.enqueue_antennas (r : Request) : (s.enqueue r).antennas = s.antennas := rfl
@[simp] theorem State.enqueue_ports (r : Request) : (s.enqueue r).ports = s.ports := rfl
@[simp] theorem State.enqueue_freeIndex (r : Request) : (s.enqueue r).freeIndex = s.freeIndex := rfl
@[simp] theorem State.enqueue_pending (r : Request) : (s.enqueue r).pending = s.pending := rfl

@[simp] theorem State.wake_link : (s.wake).link = s.link.choose := rfl
@[simp] theorem State.wake_policy : (s.wake).policy = s.policy := rfl
@[simp] theorem State.wake_roster : (s.wake).roster = s.roster := rfl
@[simp] theorem State.wake_strangers : (s.wake).strangers = s.strangers := rfl
@[simp] theorem State.wake_queue : (s.wake).queue = s.queue := rfl
@[simp] theorem State.wake_nextOrder : (s.wake).nextOrder = s.nextOrder := rfl
@[simp] theorem State.wake_contexts : (s.wake).contexts = s.contexts := rfl
@[simp] theorem State.wake_running : (s.wake).running = s.running := rfl
@[simp] theorem State.wake_antennas : (s.wake).antennas = s.antennas := rfl
@[simp] theorem State.wake_ports : (s.wake).ports = s.ports := rfl
@[simp] theorem State.wake_freeIndex : (s.wake).freeIndex = s.freeIndex := rfl
@[simp] theorem State.wake_pending : (s.wake).pending = s.pending := rfl

@[simp] theorem State.queueNotice_link (n : Notice) : (s.queueNotice n).link = s.link.queueNotice n := rfl
@[simp] theorem State.queueNotice_policy (n : Notice) : (s.queueNotice n).policy = s.policy := rfl
@[simp] theorem State.queueNotice_roster (n : Notice) : (s.queueNotice n).roster = s.roster := rfl
@[simp] theorem State.queueNotice_strangers (n : Notice) : (s.queueNotice n).strangers = s.strangers := rfl
@[simp] theorem State.queueNotice_queue (n : Notice) : (s.queueNotice n).queue = s.queue := rfl
@[simp] theorem State.queueNotice_nextOrder (n : Notice) : (s.queueNotice n).nextOrder = s.nextOrder := rfl
@[simp] theorem State.queueNotice_contexts (n : Notice) : (s.queueNotice n).contexts = s.contexts := rfl
@[simp] theorem State.queueNotice_running (n : Notice) : (s.queueNotice n).running = s.running := rfl
@[simp] theorem State.queueNotice_antennas (n : Notice) : (s.queueNotice n).antennas = s.antennas := rfl
@[simp] theorem State.queueNotice_ports (n : Notice) : (s.queueNotice n).ports = s.ports := rfl
@[simp] theorem State.queueNotice_freeIndex (n : Notice) : (s.queueNotice n).freeIndex = s.freeIndex := rfl
@[simp] theorem State.queueNotice_pending (n : Notice) : (s.queueNotice n).pending = s.pending := rfl

@[simp] theorem State.mapEntry_link (e : EntryNo) (f : Entry → Entry) : (s.mapEntry e f).link = s.link := by
  unfold State.mapEntry; split <;> rfl
@[simp] theorem State.mapEntry_policy (e : EntryNo) (f : Entry → Entry) : (s.mapEntry e f).policy = s.policy := by
  unfold State.mapEntry; split <;> rfl
@[simp] theorem State.mapEntry_strangers (e : EntryNo) (f : Entry → Entry) : (s.mapEntry e f).strangers = s.strangers := by
  unfold State.mapEntry; split <;> rfl
@[simp] theorem State.mapEntry_queue (e : EntryNo) (f : Entry → Entry) : (s.mapEntry e f).queue = s.queue := by
  unfold State.mapEntry; split <;> rfl
@[simp] theorem State.mapEntry_nextOrder (e : EntryNo) (f : Entry → Entry) : (s.mapEntry e f).nextOrder = s.nextOrder := by
  unfold State.mapEntry; split <;> rfl
@[simp] theorem State.mapEntry_contexts (e : EntryNo) (f : Entry → Entry) : (s.mapEntry e f).contexts = s.contexts := by
  unfold State.mapEntry; split <;> rfl
@[simp] theorem State.mapEntry_running (e : EntryNo) (f : Entry → Entry) : (s.mapEntry e f).running = s.running := by
  unfold State.mapEntry; split <;> rfl
@[simp] theorem State.mapEntry_antennas (e : EntryNo) (f : Entry → Entry) : (s.mapEntry e f).antennas = s.antennas := by
  unfold State.mapEntry; split <;> rfl
@[simp] theorem State.mapEntry_ports (e : EntryNo) (f : Entry → Entry) : (s.mapEntry e f).ports = s.ports := by
  unfold State.mapEntry; split <;> rfl
@[simp] theorem State.mapEntry_freeIndex (e : EntryNo) (f : Entry → Entry) : (s.mapEntry e f).freeIndex = s.freeIndex := by
  unfold State.mapEntry; split <;> rfl
@[simp] theorem State.mapEntry_pending (e : EntryNo) (f : Entry → Entry) : (s.mapEntry e f).pending = s.pending := by
  unfold State.mapEntry; split <;> rfl

@[simp] theorem State.mapCtx_link (c : ContextNo) (f : Context → Context) : (s.mapCtx c f).link = s.link := by
  unfold State.mapCtx; split <;> rfl
@[simp] theorem State.mapCtx_policy (c : ContextNo) (f : Context → Context) : (s.mapCtx c f).policy = s.policy := by
  unfold State.mapCtx; split <;> rfl
@[simp] theorem State.mapCtx_roster (c : ContextNo) (f : Context → Context) : (s.mapCtx c f).roster = s.roster := by
  unfold State.mapCtx; split <;> rfl
@[simp] theorem State.mapCtx_strangers (c : ContextNo) (f : Context → Context) : (s.mapCtx c f).strangers = s.strangers := by
  unfold State.mapCtx; split <;> rfl
@[simp] theorem State.mapCtx_queue (c : ContextNo) (f : Context → Context) : (s.mapCtx c f).queue = s.queue := by
  unfold State.mapCtx; split <;> rfl
@[simp] theorem State.mapCtx_nextOrder (c : ContextNo) (f : Context → Context) : (s.mapCtx c f).nextOrder = s.nextOrder := by
  unfold State.mapCtx; split <;> rfl
@[simp] theorem State.mapCtx_running (c : ContextNo) (f : Context → Context) : (s.mapCtx c f).running = s.running := by
  unfold State.mapCtx; split <;> rfl
@[simp] theorem State.mapCtx_antennas (c : ContextNo) (f : Context → Context) : (s.mapCtx c f).antennas = s.antennas := by
  unfold State.mapCtx; split <;> rfl
@[simp] theorem State.mapCtx_ports (c : ContextNo) (f : Context → Context) : (s.mapCtx c f).ports = s.ports := by
  unfold State.mapCtx; split <;> rfl
@[simp] theorem State.mapCtx_freeIndex (c : ContextNo) (f : Context → Context) : (s.mapCtx c f).freeIndex = s.freeIndex := by
  unfold State.mapCtx; split <;> rfl
@[simp] theorem State.mapCtx_pending (c : ContextNo) (f : Context → Context) : (s.mapCtx c f).pending = s.pending := by
  unfold State.mapCtx; split <;> rfl

/-! ### Reads after writes -/

theorem get_set_self {α : Type} {n : Nat} (v : Vector α n) (i : Fin n) (x : α) : (v.set i x).get i = x := by
  show (v.set i x)[i.val] = x; simp

theorem get_set_ne {α : Type} {n : Nat} (v : Vector α n) {i j : Fin n} (x : α) (h : i ≠ j) :
    (v.set i x).get j = v.get j := by
  show (v.set i x)[j.val] = v[j.val]
  exact Vector.getElem_set_ne _ _ (Fin.val_ne_of_ne h)

@[simp] theorem State.entry_putEntry_self (e : EntryNo) (x : Option Entry) : (s.putEntry e x).entry e = x := get_set_self _ _ _

theorem State.entry_putEntry_ne {e e' : EntryNo} (x : Option Entry) (h : e ≠ e') :
    (s.putEntry e x).entry e' = s.entry e' := get_set_ne _ _ h

@[simp] theorem State.ctx_putCtx_self (c : ContextNo) (x : Option Context) : (s.putCtx c x).ctx c = x := get_set_self _ _ _

theorem State.ctx_putCtx_ne {c c' : ContextNo} (x : Option Context) (h : c ≠ c') :
    (s.putCtx c x).ctx c' = s.ctx c' := get_set_ne _ _ h

@[simp] theorem State.ant_mapAnt_self (a : AntennaNo) (f : Antenna → Antenna) :
    (s.mapAnt a f).ant a = f (s.ant a) := get_set_self _ _ _

theorem State.ant_mapAnt_ne {a b : AntennaNo} (f : Antenna → Antenna) (h : a ≠ b) :
    (s.mapAnt a f).ant b = s.ant b := get_set_ne _ _ h

@[simp] theorem State.port_mapPort_self (a : AntennaNo) (f : Port → Port) :
    (s.mapPort a f).port a = f (s.port a) := get_set_self _ _ _

theorem State.port_mapPort_ne {a b : AntennaNo} (f : Port → Port) (h : a ≠ b) :
    (s.mapPort a f).port b = s.port b := get_set_ne _ _ h

/-! ### Reads of a store that an update leaves alone -/

@[simp] theorem State.entry_mapLink (f : HostLink → HostLink) (e' : EntryNo) : (s.mapLink f).entry e' = s.entry e' := by
  simp [State.entry]
@[simp] theorem State.ctx_mapLink (f : HostLink → HostLink) (c' : ContextNo) : (s.mapLink f).ctx c' = s.ctx c' := by
  simp [State.ctx]
@[simp] theorem State.ant_mapLink (f : HostLink → HostLink) (b : AntennaNo) : (s.mapLink f).ant b = s.ant b := by
  simp [State.ant]
@[simp] theorem State.port_mapLink (f : HostLink → HostLink) (b : AntennaNo) : (s.mapLink f).port b = s.port b := by
  simp [State.port]

@[simp] theorem State.ctx_putEntry (e : EntryNo) (x : Option Entry) (c' : ContextNo) : (s.putEntry e x).ctx c' = s.ctx c' := by
  simp [State.ctx]
@[simp] theorem State.ant_putEntry (e : EntryNo) (x : Option Entry) (b : AntennaNo) : (s.putEntry e x).ant b = s.ant b := by
  simp [State.ant]
@[simp] theorem State.port_putEntry (e : EntryNo) (x : Option Entry) (b : AntennaNo) : (s.putEntry e x).port b = s.port b := by
  simp [State.port]

@[simp] theorem State.entry_putCtx (c : ContextNo) (x : Option Context) (e' : EntryNo) : (s.putCtx c x).entry e' = s.entry e' := by
  simp [State.entry]
@[simp] theorem State.ant_putCtx (c : ContextNo) (x : Option Context) (b : AntennaNo) : (s.putCtx c x).ant b = s.ant b := by
  simp [State.ant]
@[simp] theorem State.port_putCtx (c : ContextNo) (x : Option Context) (b : AntennaNo) : (s.putCtx c x).port b = s.port b := by
  simp [State.port]

@[simp] theorem State.entry_mapAnt (a : AntennaNo) (f : Antenna → Antenna) (e' : EntryNo) : (s.mapAnt a f).entry e' = s.entry e' := by
  simp [State.entry]
@[simp] theorem State.ctx_mapAnt (a : AntennaNo) (f : Antenna → Antenna) (c' : ContextNo) : (s.mapAnt a f).ctx c' = s.ctx c' := by
  simp [State.ctx]
@[simp] theorem State.port_mapAnt (a : AntennaNo) (f : Antenna → Antenna) (b : AntennaNo) : (s.mapAnt a f).port b = s.port b := by
  simp [State.port]

@[simp] theorem State.entry_mapPort (a : AntennaNo) (f : Port → Port) (e' : EntryNo) : (s.mapPort a f).entry e' = s.entry e' := by
  simp [State.entry]
@[simp] theorem State.ctx_mapPort (a : AntennaNo) (f : Port → Port) (c' : ContextNo) : (s.mapPort a f).ctx c' = s.ctx c' := by
  simp [State.ctx]
@[simp] theorem State.ant_mapPort (a : AntennaNo) (f : Port → Port) (b : AntennaNo) : (s.mapPort a f).ant b = s.ant b := by
  simp [State.ant]

@[simp] theorem State.entry_removeRequest (e : EntryNo) (e' : EntryNo) : (s.removeRequest e).entry e' = s.entry e' := by
  simp [State.entry]
@[simp] theorem State.ctx_removeRequest (e : EntryNo) (c' : ContextNo) : (s.removeRequest e).ctx c' = s.ctx c' := by
  simp [State.ctx]
@[simp] theorem State.ant_removeRequest (e : EntryNo) (b : AntennaNo) : (s.removeRequest e).ant b = s.ant b := by
  simp [State.ant]
@[simp] theorem State.port_removeRequest (e : EntryNo) (b : AntennaNo) : (s.removeRequest e).port b = s.port b := by
  simp [State.port]

@[simp] theorem State.entry_enqueue (r : Request) (e' : EntryNo) : (s.enqueue r).entry e' = s.entry e' := by
  simp [State.entry]
@[simp] theorem State.ctx_enqueue (r : Request) (c' : ContextNo) : (s.enqueue r).ctx c' = s.ctx c' := by
  simp [State.ctx]
@[simp] theorem State.ant_enqueue (r : Request) (b : AntennaNo) : (s.enqueue r).ant b = s.ant b := by
  simp [State.ant]
@[simp] theorem State.port_enqueue (r : Request) (b : AntennaNo) : (s.enqueue r).port b = s.port b := by
  simp [State.port]

@[simp] theorem State.entry_wake (e' : EntryNo) : (s.wake).entry e' = s.entry e' := by
  simp [State.entry]
@[simp] theorem State.ctx_wake (c' : ContextNo) : (s.wake).ctx c' = s.ctx c' := by
  simp [State.ctx]
@[simp] theorem State.ant_wake (b : AntennaNo) : (s.wake).ant b = s.ant b := by
  simp [State.ant]
@[simp] theorem State.port_wake (b : AntennaNo) : (s.wake).port b = s.port b := by
  simp [State.port]

@[simp] theorem State.entry_queueNotice (n : Notice) (e' : EntryNo) : (s.queueNotice n).entry e' = s.entry e' := by
  simp [State.entry]
@[simp] theorem State.ctx_queueNotice (n : Notice) (c' : ContextNo) : (s.queueNotice n).ctx c' = s.ctx c' := by
  simp [State.ctx]
@[simp] theorem State.ant_queueNotice (n : Notice) (b : AntennaNo) : (s.queueNotice n).ant b = s.ant b := by
  simp [State.ant]
@[simp] theorem State.port_queueNotice (n : Notice) (b : AntennaNo) : (s.queueNotice n).port b = s.port b := by
  simp [State.port]

@[simp] theorem State.ctx_mapEntry (e : EntryNo) (f : Entry → Entry) (c' : ContextNo) : (s.mapEntry e f).ctx c' = s.ctx c' := by
  simp [State.ctx]
@[simp] theorem State.ant_mapEntry (e : EntryNo) (f : Entry → Entry) (b : AntennaNo) : (s.mapEntry e f).ant b = s.ant b := by
  simp [State.ant]
@[simp] theorem State.port_mapEntry (e : EntryNo) (f : Entry → Entry) (b : AntennaNo) : (s.mapEntry e f).port b = s.port b := by
  simp [State.port]

@[simp] theorem State.entry_mapCtx (c : ContextNo) (f : Context → Context) (e' : EntryNo) : (s.mapCtx c f).entry e' = s.entry e' := by
  simp [State.entry]
@[simp] theorem State.ant_mapCtx (c : ContextNo) (f : Context → Context) (b : AntennaNo) : (s.mapCtx c f).ant b = s.ant b := by
  simp [State.ant]
@[simp] theorem State.port_mapCtx (c : ContextNo) (f : Context → Context) (b : AntennaNo) : (s.mapCtx c f).port b = s.port b := by
  simp [State.port]

/-! ### Changing an entry or a context -/

theorem State.entry_mapEntry_self (e : EntryNo) (f : Entry → Entry) :
    (s.mapEntry e f).entry e = (s.entry e).map f := by
  unfold State.mapEntry; split <;> simp_all

theorem State.entry_mapEntry_ne {e e' : EntryNo} (f : Entry → Entry) (h : e ≠ e') :
    (s.mapEntry e f).entry e' = s.entry e' := by
  unfold State.mapEntry; split
  · rfl
  · exact s.entry_putEntry_ne _ h

theorem State.ctx_mapCtx_self (c : ContextNo) (f : Context → Context) :
    (s.mapCtx c f).ctx c = (s.ctx c).map f := by
  unfold State.mapCtx; split <;> simp_all

theorem State.ctx_mapCtx_ne {c c' : ContextNo} (f : Context → Context) (h : c ≠ c') :
    (s.mapCtx c f).ctx c' = s.ctx c' := by
  unfold State.mapCtx; split
  · rfl
  · exact s.ctx_putCtx_ne _ h

/-! ### Reads of a state that is written out -/

section
variable (l : HostLink) (p : Vector Byte 16) (r : Vector (Option Entry) 96) (st : List BeltpackId) (q : List Request)
  (n : Nat) (cs : Vector (Option Context) 8) (ru : Bool) (an : Vector Antenna 24) (po : Vector Port 24) (fi : Nat)
  (pe : List Instr)

@[simp] theorem State.entry_mk (e : EntryNo) : (State.mk l p r st q n cs ru an po fi pe).entry e = r.get e := rfl
@[simp] theorem State.ctx_mk (c : ContextNo) : (State.mk l p r st q n cs ru an po fi pe).ctx c = cs.get c := rfl
@[simp] theorem State.ant_mk (a : AntennaNo) : (State.mk l p r st q n cs ru an po fi pe).ant a = an.get a := rfl
@[simp] theorem State.port_mk (a : AntennaNo) : (State.mk l p r st q n cs ru an po fi pe).port a = po.get a := rfl
@[simp] theorem State.slot_mk (a : AntennaNo) (sl : SlotNo) :
    (State.mk l p r st q n cs ru an po fi pe).slot a sl = (an.get a).slots.get sl := rfl
@[simp] theorem State.mapCtx_mk (c : ContextNo) {y : Context} (h : cs.get c = some y) (f : Context → Context) :
    (State.mk l p r st q n cs ru an po fi pe).mapCtx c f =
      State.mk l p r st q n (cs.set c (some (f y))) ru an po fi pe := by
  simp [State.mapCtx, h, State.putCtx]
@[simp] theorem State.mapEntry_mk (e : EntryNo) {x : Entry} (h : r.get e = some x) (f : Entry → Entry) :
    (State.mk l p r st q n cs ru an po fi pe).mapEntry e f =
      State.mk l p (r.set e (some (f x))) st q n cs ru an po fi pe := by
  simp [State.mapEntry, h, State.putEntry]
@[simp] theorem State.mapSurvey_mk (e : EntryNo) {x : Entry} (h : r.get e = some x) (f : Survey → Survey) :
    (State.mk l p r st q n cs ru an po fi pe).mapSurvey e f =
      State.mk l p (r.set e (some { x with survey := f x.survey })) st q n cs ru an po fi pe := by
  simp [State.mapSurvey, State.mapEntry, h, State.putEntry]
end

/-! ### The whole state after a change of a place that is held -/

theorem set_set {α : Type} {n : Nat} (v : Vector α n) (i : Fin n) (x y : α) : (v.set i x).set i y = v.set i y := by
  ext j hj; simp only [Vector.getElem_set]; split <;> rfl

theorem set_get {α : Type} {n : Nat} (v : Vector α n) (i : Fin n) : v.set i (v.get i) = v := by
  ext j hj; simp only [Vector.getElem_set]; split
  · rename_i h; subst h; rfl
  · rfl

theorem set_of_get {α : Type} {n : Nat} {v : Vector α n} {i : Fin n} {x : α} (h : v.get i = x) : v.set i x = v := by
  rw [← h]; exact set_get v i

variable {s}

theorem State.mapEntry_eq {e : EntryNo} {x : Entry} (h : s.entry e = some x) (f : Entry → Entry) :
    s.mapEntry e f = { s with roster := s.roster.set e (some (f x)) } := by
  simp [State.mapEntry, h, State.putEntry]

theorem State.mapCtx_eq {c : ContextNo} {y : Context} (h : s.ctx c = some y) (f : Context → Context) :
    s.mapCtx c f = { s with contexts := s.contexts.set c (some (f y)) } := by
  simp [State.mapCtx, h, State.putCtx]

theorem State.mapSurvey_eq {e : EntryNo} {x : Entry} (h : s.entry e = some x) (f : Survey → Survey) :
    s.mapSurvey e f = { s with roster := s.roster.set e (some { x with survey := f x.survey }) } :=
  State.mapEntry_eq h _

end Sys2Proof.Machine
end

