-- ==== Sys2Proof/Laws/Ports.lean ====
section
/-! SUPPORT. What posting an order, beginning an exchange and letting go of an order do to the state. -/

namespace Sys2Proof.Machine

variable {s : State} {a : AntennaNo} {c : ContextNo} {y : Context}

/-! ### Beginning an exchange and posting an order touch one port -/

theorem State.beginExchange_eq (s : State) (a : AntennaNo) :
    s.beginExchange a =
      { s with ports := s.ports.set a ((s.port a).begin s.running (s.ant a).loopback s.orderTimeout) } := rfl

theorem State.postOrder_eq (s : State) (a : AntennaNo) (o : Order) :
    s.postOrder a o =
      { s with ports := s.ports.set a (((s.port a).post o).begin s.running (s.ant a).loopback s.orderTimeout) } := by
  unfold State.postOrder
  rw [State.beginExchange_eq, State.port_mapPort_self]
  simp only [State.mapPort, set_set]
  rfl

/-- An idle port of the running trunk with neither a due probe nor an order begins nothing. -/
theorem Port.begin_idle {p : Port} {running : Bool} {mode : LoopbackMode} {ms : Nat}
    (h : running = false ∨ p.inFlight ≠ none ∨ p.probeDue = false ∧ p.fifo = []) : p.begin running mode ms = p := by
  unfold Port.begin
  grind

theorem Port.begin_probe {p : Port} {mode : LoopbackMode} {ms : Nat} (hf : p.inFlight = none) (hd : p.probeDue = true) :
    p.begin true mode ms =
      { p with probeDue := false, inFlight := some ⟨.probe, 2, responderReply mode .probe⟩ } := by
  simp [Port.begin, hf, hd]; rfl

theorem Port.begin_order {p : Port} {mode : LoopbackMode} {ms : Nat} {o : Order} {os : List Order}
    (hf : p.inFlight = none) (hd : p.probeDue = false) (ho : p.fifo = o :: os) :
    p.begin true mode ms =
      { p with fifo := os, inFlight := some ⟨.order o, ms, responderReply mode (.order o)⟩ }.placeWaiting := by
  simp [Port.begin, hf, hd, ho]

/-- The oldest waiting poster takes a free place. -/
theorem Port.placeWaiting_room {p : Port} (h : p.fifo.length < 6) :
    p.placeWaiting = { p with fifo := p.fifo ++ p.waiting.take 1, waiting := p.waiting.drop 1 } := by
  unfold Port.placeWaiting
  cases hw : p.waiting with
  | nil => cases p; simp_all
  | cons o ws => simp [Config.fifoPlaces, h]

theorem responderReply_eq (mode : LoopbackMode) (x : Sent) : responderReply mode x = preparedReply mode x := by
  cases x with
  | probe => cases mode <;> rfl
  | order o => obtain ⟨body, id, sl, who⟩ := o; cases mode <;> cases body <;> rfl

/-! ### Letting go of an awaited order (R95) -/

theorem State.stopAwaiting_none (h : s.ctx c = some y) (ha : y.awaited = none) : s.stopAwaiting c = s := by
  simp [State.stopAwaiting, h, ha]

theorem State.stopAwaiting_some {w : Awaited} (h : s.ctx c = some y) (ha : y.awaited = some w) :
    s.stopAwaiting c =
      { s with contexts := s.contexts.set c (some { y with awaited := none }),
               ports := s.ports.set w.port ((s.port w.port).leave c) } := by
  simp only [State.stopAwaiting, h, ha]
  rw [State.mapCtx_eq (y := y) (by simpa using h)]; rfl

/-- Letting go changes the ports and the context alone. -/
theorem State.stopAwaiting_eq (h : s.ctx c = some y) :
    s.stopAwaiting c =
      { s with contexts := s.contexts.set c (some { y with awaited := none }), ports := (s.stopAwaiting c).ports } := by
  cases ha : y.awaited with
  | none =>
    have hy : ({ y with awaited := none } : Context) = y := by rw [← ha]
    rw [State.stopAwaiting_none h ha, hy, set_of_get h]
  | some w => rw [State.stopAwaiting_some h ha]

/-- The ports after letting go depend on the awaited order alone. -/
theorem State.stopAwaiting_ports_of {t : State} {y' : Context} (h : s.ctx c = some y) (h' : t.ctx c = some y')
    (ha : y'.awaited = y.awaited) (hp : t.ports = s.ports) : (t.stopAwaiting c).ports = (s.stopAwaiting c).ports := by
  cases hw : y.awaited with
  | none => rw [State.stopAwaiting_none h hw, State.stopAwaiting_none h' (ha.trans hw), hp]
  | some w =>
    rw [State.stopAwaiting_some h hw, State.stopAwaiting_some h' (ha.trans hw)]
    simp [State.port, hp]

end Sys2Proof.Machine
end

