-- ==== Sys2Proof/Laws/Slots.lean ====
section
/-! SUPPORT. What claiming, releasing and freeing a slot do to the state, and what giving up an attempt does. -/

namespace Sys2Proof.Machine

variable {s : State} {a : AntennaNo} {sl : SlotNo} {e : EntryNo} {x : Entry} {c : ContextNo} {y : Context}

/-! ### One slot of one antenna -/

theorem State.setSlot_eq (s : State) (a : AntennaNo) (sl : SlotNo) (v : Slot) :
    s.setSlot a sl v =
      { s with antennas := s.antennas.set a { s.ant a with slots := (s.ant a).slots.set sl v } } := rfl

@[simp] theorem State.slot_setSlot_self (s : State) (a : AntennaNo) (sl : SlotNo) (v : Slot) :
    (s.setSlot a sl v).slot a sl = v := by
  simp only [State.slot, State.setSlot, State.ant_mapAnt_self]
  exact get_set_self _ _ _

theorem State.claim_eq (s : State) (a : AntennaNo) (sl : SlotNo) (e : EntryNo) (groups : List Group) :
    s.claim a sl e groups =
      { s with antennas := s.antennas.set a
                 { s.ant a with slots := (s.ant a).slots.set sl (.reserved e),
                                lanes := groups.foldl Lanes.count (s.ant a).lanes } } := by
  unfold State.claim State.mapLanes State.setSlot
  simp only [State.mapAnt, set_set]
  simp [State.ant, get_set_self]

/-- A Reserved or Occupied slot goes to Releasing with its order (R49). -/
theorem State.releaseSlot_held (he : s.entry e = some x) (h : s.slot a sl = .reserved e ∨ s.slot a sl = .occupied e) :
    s.releaseSlot a sl = (s.setSlot a sl (.releasing e)).postOrder a ⟨.release, x.id, sl, .slot sl⟩ := by
  unfold State.releaseSlot
  rcases h with h | h <;> simp [h, he]

theorem State.releaseSlot_not (h : s.slot a sl = .free ∨ s.slot a sl = .releasing e) : s.releaseSlot a sl = s := by
  unfold State.releaseSlot
  rcases h with h | h <;> simp [h]

/-- Releasing a slot changes the antennas and the ports alone, and reads neither link, contexts nor queue. -/
theorem State.releaseSlot_eq (s : State) (a : AntennaNo) (sl : SlotNo) :
    s.releaseSlot a sl =
      { s with antennas := (s.releaseSlot a sl).antennas, ports := (s.releaseSlot a sl).ports } := by
  unfold State.releaseSlot
  split
  · split <;> rfl
  · split <;> rfl
  · rfl
  · rfl

theorem State.releaseSlot_of {t : State} (ha : t.antennas = s.antennas) (hr : t.roster = s.roster)
    (hp : t.ports = s.ports) (hn : t.running = s.running) (hl : t.policy = s.policy) :
    t.releaseSlot a sl =
      { t with antennas := (s.releaseSlot a sl).antennas, ports := (s.releaseSlot a sl).ports } := by
  obtain ⟨l, p, r, st, q, n, cs, ru, an, po, f, pe⟩ := t
  simp only at ha hr hp hn hl
  subst ha hr hp hn hl
  unfold State.releaseSlot
  have h1 : (State.mk l s.policy s.roster st q n cs s.running s.antennas s.ports f pe).slot a sl = s.slot a sl := rfl
  have h2 : ∀ e, (State.mk l s.policy s.roster st q n cs s.running s.antennas s.ports f pe).entry e = s.entry e :=
    fun _ => rfl
  rw [h1]
  split
  · rw [h2]; split <;> rfl
  · rw [h2]; split <;> rfl
  · rfl
  · rfl

/-- A slot that names an entry is freed with its groups uncounted (R51). -/
theorem State.freeSlot_held (he : s.entry e = some x) (h : (s.slot a sl).entry? = some e) :
    s.freeSlot a sl =
      { s with antennas := s.antennas.set a
                 { s.ant a with slots := (s.ant a).slots.set sl .free,
                                lanes := (presentGroups x.groupA x.groupB).foldl Lanes.uncount (s.ant a).lanes } } := by
  unfold State.freeSlot State.mapLanes State.setSlot
  simp only [h, he, State.mapAnt, set_set]
  simp [State.ant, get_set_self]

theorem State.freeSlot_free (h : s.slot a sl = .free) : s.freeSlot a sl = s := by
  simp [State.freeSlot, h, Slot.entry?]

/-! ### Giving up an attempt (R52, R105, R106) -/

/-- The context that has given up its attempt. -/
abbrev Context.givenUp (y : Context) : Context :=
  { y with arrivalTimer := none, awaited := none, target := none, targetSlot := none }

theorem State.undoReservation_reserved (h : s.ctx c = some y) (ht : y.target = some a) (hs : y.targetSlot = some sl)
    (hr : s.slot a sl = .reserved y.entry) :
    s.undoReservation c =
      { s.releaseSlot a sl with contexts := s.contexts.set c (some { y with target := none, targetSlot := none }) } := by
  unfold State.undoReservation
  simp only [h, ht, hs, hr, if_true]
  have hc : (s.releaseSlot a sl).ctx c = some y := by rw [State.releaseSlot_eq]; exact h
  rw [State.mapCtx_eq hc, State.releaseSlot_eq]

theorem State.undoReservation_not (h : s.ctx c = some y)
    (hr : ∀ a sl, y.target = some a → y.targetSlot = some sl → s.slot a sl ≠ .reserved y.entry) :
    s.undoReservation c =
      { s with contexts := s.contexts.set c (some { y with target := none, targetSlot := none }) } := by
  unfold State.undoReservation
  simp only [h]
  split
  · rename_i a sl ht hs
    rw [if_neg (hr a sl ht hs), State.mapCtx_eq h]
  · rw [State.mapCtx_eq h]

/-- What is left when the timer has stopped and the awaited order is let go. -/
theorem State.letGo_eq (h : s.ctx c = some y) :
    (s.mapCtx c fun x => { x with arrivalTimer := none }).stopAwaiting c =
      { s with contexts := s.contexts.set c (some { y with arrivalTimer := none, awaited := none }),
               ports := (s.stopAwaiting c).ports } := by
  have h' : ({ s with contexts := s.contexts.set c (some { y with arrivalTimer := none }) } : State).ctx c =
      some { y with arrivalTimer := none } := get_set_self _ _ _
  rw [State.mapCtx_eq h, State.stopAwaiting_eq h', State.stopAwaiting_ports_of h h' rfl rfl, set_set]

theorem State.giveUpAttempt_reserved (h : s.ctx c = some y) (ht : y.target = some a) (hs : y.targetSlot = some sl)
    (hr : s.slot a sl = .reserved y.entry) :
    s.giveUpAttempt c =
      { (s.stopAwaiting c).releaseSlot a sl with contexts := s.contexts.set c (some y.givenUp) } := by
  have hc : ({ s with contexts := s.contexts.set c (some { y with arrivalTimer := none, awaited := none }),
                      ports := (s.stopAwaiting c).ports } : State).ctx c =
      some { y with arrivalTimer := none, awaited := none } := get_set_self _ _ _
  unfold State.giveUpAttempt
  rw [State.letGo_eq h, State.undoReservation_reserved hc ht hs hr, set_set,
    State.releaseSlot_of (s := s.stopAwaiting c)]
  · rw [State.releaseSlot_eq (s.stopAwaiting c), State.stopAwaiting_eq h]
  all_goals rw [State.stopAwaiting_eq h]

theorem State.giveUpAttempt_not (h : s.ctx c = some y)
    (hr : ∀ a sl, y.target = some a → y.targetSlot = some sl → s.slot a sl ≠ .reserved y.entry) :
    s.giveUpAttempt c = { s.stopAwaiting c with contexts := s.contexts.set c (some y.givenUp) } := by
  have hc : ({ s with contexts := s.contexts.set c (some { y with arrivalTimer := none, awaited := none }),
                      ports := (s.stopAwaiting c).ports } : State).ctx c =
      some { y with arrivalTimer := none, awaited := none } := get_set_self _ _ _
  unfold State.giveUpAttempt
  rw [State.letGo_eq h, State.undoReservation_not hc hr, set_set]
  rw [State.stopAwaiting_eq h]

/-- Giving up an attempt changes antennas, ports and the context alone. -/
theorem State.giveUpAttempt_eq (h : s.ctx c = some y) :
    s.giveUpAttempt c =
      { s with contexts := s.contexts.set c (some y.givenUp), antennas := (s.giveUpAttempt c).antennas,
               ports := (s.giveUpAttempt c).ports } := by
  by_cases hr : ∃ a sl, y.target = some a ∧ y.targetSlot = some sl ∧ s.slot a sl = .reserved y.entry
  · obtain ⟨a, sl, ht, hs, hr⟩ := hr
    rw [State.giveUpAttempt_reserved h ht hs hr, State.releaseSlot_eq, State.stopAwaiting_eq h]
  · rw [State.giveUpAttempt_not h fun a sl ht hs hr' => hr ⟨a, sl, ht, hs, hr'⟩, State.stopAwaiting_eq h]

theorem State.giveUpAttempt_free (h : s.ctx c = none) : s.giveUpAttempt c = s := by
  simp [State.giveUpAttempt, State.mapCtx, h, State.stopAwaiting, State.undoReservation]

/-- What giving up an attempt leaves alone, whatever the context. -/
theorem State.giveUpAttempt_rest (s : State) (c : ContextNo) :
    s.giveUpAttempt c =
      { s with contexts := (s.giveUpAttempt c).contexts, antennas := (s.giveUpAttempt c).antennas,
               ports := (s.giveUpAttempt c).ports } := by
  cases h : s.ctx c with
  | none => rw [State.giveUpAttempt_free h]
  | some y => rw [State.giveUpAttempt_eq h]

/-! ### Searches over slots and lanes -/

/-- The first index with a property, in number order. -/
theorem find_finRange_eq_some {n : Nat} {p : Fin n → Bool} {i : Fin n} :
    (List.finRange n).find? p = some i ↔ p i = true ∧ ∀ j < i, p j = false := by
  rw [List.find?_eq_some_iff_getElem]
  constructor
  · rintro ⟨hp, k, hk, rfl, hl⟩
    simp only [List.getElem_finRange] at *
    refine ⟨hp, fun j hj => ?_⟩
    have := hl j.val (by simpa [Fin.lt_def] using hj)
    simpa using this
  · rintro ⟨hp, hl⟩
    refine ⟨hp, i.val, by simp, by simp, fun j hj => ?_⟩
    have := hl ⟨j, by omega⟩ (by simpa [Fin.lt_def] using hj)
    simpa using this

theorem find_finRange_eq_none {n : Nat} {p : Fin n → Bool} :
    (List.finRange n).find? p = none ↔ ∀ i, p i = false := by
  simp [List.find?_eq_none]

theorem mem_toList_iff {α : Type} {n : Nat} (v : Vector α n) (x : α) : x ∈ v.toList ↔ ∃ i : Fin n, v.get i = x := by
  rw [Vector.mem_toList_iff, Vector.mem_iff_getElem]
  constructor
  · rintro ⟨i, hi, h⟩; exact ⟨⟨i, hi⟩, h⟩
  · rintro ⟨i, h⟩; exact ⟨i.val, i.isLt, h⟩

/-- A vector as the list of its places in order. -/
theorem toList_eq_map {α : Type} {n : Nat} (v : Vector α n) : v.toList = (List.finRange n).map v.get := by
  apply List.ext_getElem
  · simp
  · intro i h1 h2; simp [Vector.get]

theorem Antenna.lowestFree_some {r : Antenna} :
    r.lowestFree = some sl ↔ r.slots.get sl = .free ∧ ∀ i < sl, r.slots.get i ≠ .free := by
  unfold Antenna.lowestFree
  rw [find_finRange_eq_some]
  simp

theorem Antenna.lowestFree_none {r : Antenna} : r.lowestFree = none ↔ ∀ i, r.slots.get i ≠ .free := by
  unfold Antenna.lowestFree
  rw [find_finRange_eq_none]
  simp

theorem Antenna.allFree_iff {r : Antenna} : r.allFree = true ↔ ∀ i, r.slots.get i = .free := by
  unfold Antenna.allFree
  simp only [List.all_eq_true, beq_iff_eq, mem_toList_iff, forall_exists_index, forall_apply_eq_imp_iff]

theorem Slot.entry?_some {v : Slot} : v.entry? = some e ↔ v = .reserved e ∨ v = .occupied e ∨ v = .releasing e := by
  cases v <;> simp [Slot.entry?]

theorem Antenna.holds_iff {r : Antenna} : r.holds e = true ↔
    ∃ i, r.slots.get i = .reserved e ∨ r.slots.get i = .occupied e ∨ r.slots.get i = .releasing e := by
  unfold Antenna.holds
  simp only [List.any_eq_true, beq_iff_eq, mem_toList_iff, ← Slot.entry?_some]
  grind

/-- The slot check of R46. -/
theorem Antenna.slotCheckFails_iff {r : Antenna} : r.slotCheckFails e = true ↔ (∀ i, r.slots.get i ≠ .free) ∨
    ∃ i, r.slots.get i = .reserved e ∨ r.slots.get i = .occupied e ∨ r.slots.get i = .releasing e := by
  unfold Antenna.slotCheckFails
  rw [Bool.or_eq_true, Option.isNone_iff_eq_none, Antenna.lowestFree_none, Antenna.holds_iff]

theorem Lanes.find_none {t : Lanes} {g : Group} : t.find g = none ↔ NoLaneFor t g := by
  unfold Lanes.find NoLaneFor
  rw [find_finRange_eq_none]
  refine forall_congr' fun i => ?_
  cases t.get i <;> simp [laneCarries]

theorem Lanes.emptyCount_eq (t : Lanes) :
    t.emptyCount = ((List.finRange 4).filter fun i => t.get i = none).length := by
  unfold Lanes.emptyCount
  rw [toList_eq_map, List.filter_map, List.length_map]
  congr 2
  funext i
  cases h : t.get i <;> simp [h]

/-- The lane check of R46. -/
theorem Antenna.laneCheckFails_iff {r : Antenna} (groups : List Group) :
    r.laneCheckFails groups = true ↔
      ((List.finRange 4).filter fun i => r.lanes.get i = none).length <
        (groups.filter fun g => NoLaneFor r.lanes g).length := by
  unfold Antenna.laneCheckFails
  rw [decide_eq_true_eq, Lanes.emptyCount_eq]
  have : (fun g => (Lanes.find r.lanes g).isNone) = fun g => decide (NoLaneFor r.lanes g) := by
    funext g
    rw [Bool.eq_iff_iff, Option.isNone_iff_eq_none, Lanes.find_none, decide_eq_true_eq]
  rw [this]

end Sys2Proof.Machine
end

