-- ==== Sys2Proof/Laws/Handoff.lean ====
section
/-! SUPPORT. The Handoff Engine's shared operations as equations on the state: posting an order, ending and completing a transaction, choosing a target. -/

namespace Sys2Proof.Machine

variable {s : State} {a : AntennaNo} {sl : SlotNo} {c : ContextNo} {y : Context} {z : Entry}

/-- An order becomes the awaited one and is posted (R95). -/
theorem State.postAwaited_eq (h : s.ctx c = some y) (o : Order) :
    s.postAwaited c a o =
      State.postOrder { s with contexts := s.contexts.set c (some { y with awaited := some ⟨o.body.type, a⟩ }) } a o := by
  unfold State.postAwaited
  rw [State.mapCtx_eq h]

/-- A Summon is posted for the target slot (R98, R102, R128). -/
theorem State.postSummon_eq (h : s.ctx c = some y) (ht : y.target = some a) (hs : y.targetSlot = some sl)
    (he : s.entry y.entry = some z) :
    s.postSummon c =
      State.postOrder { s with contexts := s.contexts.set c (some { y with awaited := some ⟨.summon, a⟩ }) } a
        ⟨.summon, z.id, sl, .context c⟩ := by
  unfold State.postSummon
  simp only [h, ht, hs, he]
  rw [State.postAwaited_eq h]
  simp only [ht, hs]
  rfl

/-- The end of a transaction frees the context and sets the entry's state, with the Roster's notice (R9, R107). -/
theorem State.endTransaction_eq (h : s.ctx c = some y) (he : s.entry y.entry = some z) :
    s.endTransaction c =
      { s with contexts := s.contexts.set c none, link := (s.notifyEnd y.entry z y.kind).link,
               roster := s.roster.set y.entry (some (z.endTransaction y.kind s.lostWindow)) } := by
  unfold State.endTransaction
  simp only [h, he]
  rw [State.mapEntry_eq (x := z) (by simpa using he)]
  unfold State.notifyEnd
  split <;> rfl

theorem startTimer_scaled (n k : Nat) (hk : 0 < k) : startTimer (n * k) = if n = 0 then none else some (n * k) := by
  unfold startTimer
  rcases n with _ | n
  · simp
  · rw [if_neg (by positivity), if_neg (by omega)]

/-- The completion of a transaction (R104). -/
theorem State.complete_eq (h : s.ctx c = some y) (he : s.entry y.entry = some z) :
    s.complete c =
      { s with
        contexts := s.contexts.set c none,
        roster := s.roster.set y.entry (some
          (Entry.complete { z with survey := z.survey.completeMove s.candidateLifetime } s.settleTime)),
        link := (if z.state = .lost && z.windowExpired then s.link.queueNotice (.unattached y.entry z.id .window)
          else s.link).queueNotice
            (.handoffDone y.entry z.id y.cause y.kind (y.source.map (·.1)) y.target y.targetSlot) } := by
  unfold State.complete
  simp only [h, he]
  rw [State.mapSurvey_eq he, State.mapEntry_mk (h := get_set_self _ _ _), set_set]
  split <;> rfl

/-- The Beltpack Attached notice of an Arrival (R8). -/
theorem State.notifyAttached_eq (s : State) (e : EntryNo) (z : Entry) (a : AntennaNo) (sl : SlotNo) :
    s.notifyAttached e z a sl =
      { s with link := if z.state = .attaching ∨ z.state = .lost then s.link.queueNotice (.attached e z.id a sl)
                       else s.link } := by
  unfold State.notifyAttached
  cases z.state <;> rfl

/-! ### The Roster's transitions -/

/-- A beltpack becomes Lost (R11, R12). -/
theorem State.loseServing_eq {e : EntryNo} (he : s.entry e = some z) :
    s.loseServing e a =
      { s with
        roster := s.roster.set e (some
          { z with state := .lost, serving := none, settleTimer := none,
                   lostTimer := some ((s.policy.get 10).toNat * 1000),
                   survey := { z.survey with servingScore := none, lead := none, leadCount := 0 } }),
        link := s.link.queueNotice (.lost e z.id (some a)) } := by
  unfold State.loseServing State.notify
  rw [State.mapEntry_eq he]
  simp only [State.entry_mk, get_set_self]
  rfl

/-- A beltpack goes off air with its notice (R13, R16, R17). -/
theorem State.detachWith_eq {e : EntryNo} (he : s.entry e = some z) (r : UnattachedReason) :
    s.detachWith e r =
      { s with roster := s.roster.set e (some z.offAir), link := s.link.queueNotice (.unattached e z.id r) } := by
  unfold State.detachWith State.notify
  rw [State.mapEntry_eq he]
  simp only [State.entry_mk, get_set_self]
  rfl

/-! ### Admission (R46, R94 to R96) -/

theorem State.seekAdmission_closed (he : s.entry y.entry = some z) (ho : (s.ant a).open = false) :
    s.seekAdmission c y a = (s, 0x80) := by
  simp [State.seekAdmission, he, ho]; rfl

/-- The conditions of a test that fails. -/
theorem State.seekAdmission_found (he : s.entry y.entry = some z) (ho : (s.ant a).open = true)
    (ht : (s.ant a).admissionTest y.entry (presentGroups z.groupA z.groupB) ≠ 0) :
    s.seekAdmission c y a = (s, (s.ant a).admissionTest y.entry (presentGroups z.groupA z.groupB)) := by
  simp only [State.seekAdmission, he, ho]
  generalize (s.ant a).admissionTest y.entry (presentGroups z.groupA z.groupB) = k at *
  generalize (s.ant a).lowestFree = f
  simp only [Bool.not_true, Bool.false_eq_true, if_false]
  split
  · exact absurd rfl ht
  · rfl

/-- A test that succeeds claims the lowest Free slot and posts the Reserve. -/
theorem State.seekAdmission_room (h : s.ctx c = some y) (he : s.entry y.entry = some z) (ho : (s.ant a).open = true)
    (ht : (s.ant a).admissionTest y.entry (presentGroups z.groupA z.groupB) = 0) (hf : (s.ant a).lowestFree = some sl) :
    s.seekAdmission c y a =
      (State.postOrder
        { s.claim a sl y.entry (presentGroups z.groupA z.groupB) with
          contexts := s.contexts.set c (some { y with targetSlot := some sl, awaited := some ⟨.reserve, a⟩ }) } a
        ⟨.reserve z.groupA z.groupB, z.id, sl, .context c⟩, 0) := by
  simp only [State.seekAdmission, he, ho, ht, hf, Bool.not_true, Bool.false_eq_true, if_false]
  show (State.postAwaited _ c a _, 0#8) = _
  rw [State.claim_eq, State.mapCtx_mk (h := h),
    State.postAwaited_eq (y := { y with targetSlot := some sl }) (h := by rw [State.ctx_mk]; exact get_set_self _ _ _),
    set_set]
  rfl

end Sys2Proof.Machine
end

