-- ==== Sys2Proof/Laws/Disposal.lean ====
section
/-! SUPPORT. The chain of disposals ends before its bound: each fresh choice finds a target that has not been tried (log entry 16). -/

namespace Sys2Proof.Machine

variable {s : State} {c : ContextNo} {y : Context} {z : Entry} {found : ConditionSet}

/-- The antennas that a context may still try. -/
def untried (t : AntennaSet) : Finset AntennaNo := Finset.univ.filter fun a => t.getLsbD a = false

theorem untried_card_le (t : AntennaSet) : (untried t).card ≤ 24 :=
  (Finset.card_le_univ _).trans (by simp)

theorem untried_or_bit {t : AntennaSet} {a : AntennaNo} (h : t.getLsbD a = false) :
    (untried (t ||| antennaBit a)).card < (untried t).card := by
  apply Finset.card_lt_card
  rw [Finset.ssubset_iff_of_subset]
  · refine ⟨a, by simpa [untried] using h, ?_⟩
    simp [untried, antennaBit]
  · intro b hb
    simp only [untried, Finset.mem_filter, Finset.mem_univ, true_and, BitVec.getLsbD_or, Bool.or_eq_false_iff] at *
    exact hb.1

/-- A best target is in no set that excludes it. -/
theorem State.bestTarget_untried {e : EntryNo} {t : AntennaSet} {a : AntennaNo} (h : s.bestTarget e t = some a) :
    t.getLsbD a = false := by
  unfold State.bestTarget State.bestCandidate at h
  cases he : s.entry e with
  | none => simp [he] at h
  | some x =>
    simp only [he, Option.map_eq_some_iff] at h
    obtain ⟨k, hk, rfl⟩ := h
    have := List.find?_some hk
    simp only [State.eligible, inSet, Bool.and_eq_true, Bool.not_eq_true'] at this
    exact this.2

/-- A fresh choice that finds conditions: NOTARGET, or the context with a target that had not been tried. -/
theorem State.tryTarget_found (h : s.ctx c = some y) (hf : (s.tryTarget c false).2 ≠ 0) :
    (s.tryTarget c false).2 = 0x80 ∨
      ∃ a : AntennaNo, y.tried.getLsbD a = false ∧ (s.tryTarget c false).1.ctx c = some { y with target := some a } := by
  have hc : s.chooseTarget y false = s.bestTarget y.entry (y.exclusion ||| y.tried) := by
    simp [State.chooseTarget]
  cases hb : s.bestTarget y.entry (y.exclusion ||| y.tried) with
  | none =>
    left
    simp only [State.tryTarget, h, hc, hb]
    rfl
  | some a =>
    have ht := State.bestTarget_untried hb
    rw [BitVec.getLsbD_or, Bool.or_eq_false_iff] at ht
    have hr : s.tryTarget c false =
        State.seekAdmission { s with contexts := s.contexts.set c (some { y with target := some a }) } c y a := by
      simp only [State.tryTarget, h, hc, hb]
      rw [State.mapCtx_eq h]
    rw [hr] at hf ⊢
    generalize hu : ({ s with contexts := s.contexts.set c (some { y with target := some a }) } : State) = u at *
    have huc : u.ctx c = some { y with target := some a } := by rw [← hu]; exact get_set_self _ _ _
    cases he : u.entry y.entry with
    | none => left; simp only [State.seekAdmission, he]; rfl
    | some z =>
      cases ho : (u.ant a).open with
      | false => left; rw [State.seekAdmission_closed he ho]
      | true =>
        by_cases ht0 : (u.ant a).admissionTest y.entry (presentGroups z.groupA z.groupB) = 0
        · exfalso
          apply hf
          have : ∃ sl, (u.ant a).lowestFree = some sl := by
            cases hl : (u.ant a).lowestFree with
            | some sl => exact ⟨sl, rfl⟩
            | none =>
              have : (u.ant a).slotCheckFails y.entry = true := by simp [Antenna.slotCheckFails, hl]
              rw [Antenna.admissionTest, this] at ht0
              exfalso
              revert ht0
              cases (u.ant a).laneCheckFails (presentGroups z.groupA z.groupB) <;> decide
          obtain ⟨sl, hl⟩ := this
          have := State.seekAdmission_room (y := { y with target := some a }) huc he ho ht0 hl
          exact congrArg Prod.snd this
        · right
          rw [State.seekAdmission_found he ho ht0]
          exact ⟨a, ht.2, huc⟩

/-- Going on to the next target keeps the context, with the failed target tried. -/
theorem State.moveOn_ctx (h : s.ctx c = some y) :
    (s.moveOn c y).ctx c = some { y.givenUp with tried := y.tried ||| optionBit y.target, phase := .reserve } := by
  have hg : (s.giveUpAttempt c).ctx c = some y.givenUp := by
    rw [State.giveUpAttempt_eq h]; exact get_set_self _ _ _
  unfold State.moveOn
  rw [State.mapCtx_eq hg]
  exact get_set_self _ _ _

/-! ### The bound (log entry 16) -/

/-- A disposal that is not the next disposition makes no further one. -/
theorem reportedCondition_noTarget : reportedCondition 0x80 = some .noTarget := by decide

/-- NOTARGET never goes on to a next target (R124). -/
theorem State.decideDisposal_noTarget (s : State) (x : Context) : s.decideDisposal x .noTarget ≠ .next := by
  unfold State.decideDisposal State.decideReEnter
  split
  · simp
  · cases s.fallbackMode <;> simp
    split <;> simp

theorem State.recordConditions_ctx (s : State) (e : EntryNo) (t : ConditionSet) (c : ContextNo) :
    (s.recordConditions e t).ctx c = s.ctx c := by
  simp [State.recordConditions]

theorem State.reportForced_ctx (s : State) (x : Context) (k : Condition) (d : Decision) (c : ContextNo) :
    (s.reportForced x k d).ctx c = s.ctx c := by
  unfold State.reportForced
  split
  · rfl
  · split <;> simp

/-- One more disposal in hand changes nothing once the hand holds one for each untried antenna and one over. -/
theorem State.disposeChain_succ (n : Nat) : ∀ (s : State) (found : ConditionSet) (y : Context), s.ctx c = some y →
    found = 0x80 ∧ 1 ≤ n ∨ (∃ a, y.target = some a ∧ y.tried.getLsbD a = false) ∧ (untried y.tried).card + 1 ≤ n →
    State.disposeChain (n + 1) c found s = State.disposeChain n c found s := by
  induction n with
  | zero => intro s found y _ h; omega
  | succ n ih =>
    intro s found y h hn
    rw [State.disposeChain, State.disposeChain]
    simp only [h]
    cases hk : reportedCondition found with
    | none => rfl
    | some k =>
      simp only
      generalize hd : (s.recordConditions y.entry found).decideDisposal y k = d
      cases d with
      | next =>
        simp only
        split
        · rfl
        · rename_i hr
          rcases hn with ⟨rfl, -⟩ | ⟨⟨a, ha, hta⟩, hn⟩
          · rw [reportedCondition_noTarget] at hk
            obtain rfl := Option.some.inj hk
            exact absurd hd (State.decideDisposal_noTarget _ _)
          · have hc := State.moveOn_ctx (s := (s.recordConditions y.entry found).reportForced y k .next) (c := c) (y := y)
              (by rw [State.reportForced_ctx, State.recordConditions_ctx, h])
            have hlt := untried_or_bit hta
            rcases State.tryTarget_found hc hr with h80 | ⟨b, hb, hcb⟩
            · have hp : 0 < (untried y.tried).card := Finset.card_pos.mpr ⟨a, by simpa [untried] using hta⟩
              rw [h80]
              cases hct : (((s.recordConditions y.entry found).reportForced y k .next).moveOn c y).tryTarget c false
                |>.1.ctx c with
              | none =>
                obtain ⟨m, rfl⟩ : ∃ m, n = m + 1 := ⟨n - 1, by omega⟩
                rw [State.disposeChain, State.disposeChain]
                simp [hct]
              | some y' => exact ih _ _ y' hct (.inl ⟨rfl, by omega⟩)
            · refine ih _ _ _ hcb (.inr ⟨⟨b, rfl, hb⟩, ?_⟩)
              simp only [ha, optionBit]
              omega
      | _ => rfl

/-- The rest of a chain after a fresh choice is a disposal of its own. -/
theorem State.disposeChain_rest (h : s.ctx c = some y) (hf : (s.tryTarget c false).2 ≠ 0) :
    State.disposeChain 25 c (s.tryTarget c false).2 (s.tryTarget c false).1 =
      (s.tryTarget c false).1.dispose c (s.tryTarget c false).2 := by
  unfold State.dispose disposalBound
  symm
  rcases State.tryTarget_found h hf with h80 | ⟨b, hb, hcb⟩
  · rw [h80]
    cases hct : (s.tryTarget c false).1.ctx c with
    | none => rw [State.disposeChain, State.disposeChain]; simp [hct]
    | some y' => exact State.disposeChain_succ 25 _ _ y' hct (.inl ⟨rfl, by omega⟩)
  · exact State.disposeChain_succ 25 _ _ _ hcb (.inr ⟨⟨b, rfl, hb⟩, by have := untried_card_le y.tried; simp only; omega⟩)

end Sys2Proof.Machine
end

