-- ==== Sys2Proof/Laws/Queue.lean ====
section
/-! SUPPORT. The Request Queue: the key as an order, placing a request by it, and removing one. -/

namespace Sys2Proof.Machine

theorem dropRequest_eq (e : EntryNo) (q : List Request) : dropRequest e q = q.filter (·.entry ≠ e) := by
  simp [dropRequest, bne, beq_eq_decide]

theorem State.removeRequest_eq (s : State) (e : EntryNo) :
    s.removeRequest e = { s with queue := s.queue.filter (·.entry ≠ e) } := by
  simp [State.removeRequest, dropRequest_eq]

/-! ### The key (R80) -/

theorem Cause.urgency_eq (k : Cause) : k.urgency = if k = .evacuation then 0 else 1 := by
  cases k <;> rfl

theorem Request.before_iff (x y : Request) : x.before y = true ↔ KeyBefore x y := by
  have hu : ∀ r : Request, (if r.cause = .evacuation then 0 else 1) = r.cause.urgency := fun r => (r.cause.urgency_eq).symm
  unfold Request.before KeyBefore
  simp only [hu, Fin.lt_def, Fin.ext_iff, ne_eq]
  grind

theorem KeyBefore.trans {x y z : Request} (h : KeyBefore x y) (h' : KeyBefore y z) : KeyBefore x z := by
  unfold KeyBefore at *
  simp only [Fin.lt_def, Fin.ext_iff] at *
  grind

/-- Two requests with different entry orders stand one before the other. -/
theorem KeyBefore.total {x y : Request} (h : x.order ≠ y.order) : KeyBefore x y ∨ KeyBefore y x := by
  unfold KeyBefore
  simp only [Fin.lt_def, Fin.ext_iff]
  grind

theorem KeyBefore.asymm {x y : Request} (h : KeyBefore x y) : ¬ KeyBefore y x := by
  unfold KeyBefore at *
  simp only [Fin.lt_def, Fin.ext_iff] at *
  grind

/-! ### Placing a request -/

theorem placeRequest_perm (r : Request) (q : List Request) : (placeRequest r q).Perm (r :: q) := by
  induction q with
  | nil => exact .refl _
  | cons x xs ih =>
    unfold placeRequest
    split
    · exact .refl _
    · exact (ih.cons x).trans (.swap r x xs)

/-- A request with its own entry order keeps the queue in key order. -/
theorem placeRequest_sorted {r : Request} {q : List Request} (hq : q.Pairwise KeyBefore)
    (hr : ∀ x ∈ q, x.order ≠ r.order) : (placeRequest r q).Pairwise KeyBefore := by
  induction q with
  | nil => simp [placeRequest]
  | cons x xs ih =>
    rw [List.pairwise_cons] at hq
    unfold placeRequest
    split
    · rename_i hb
      have hb := (Request.before_iff r x).mp hb
      refine List.pairwise_cons.mpr ⟨?_, List.pairwise_cons.mpr hq⟩
      intro y hy
      rcases List.mem_cons.mp hy with rfl | hy
      · exact hb
      · exact hb.trans (hq.1 y hy)
    · rename_i hb
      have hb : ¬ KeyBefore r x := fun h => hb ((Request.before_iff r x).mpr h)
      refine List.pairwise_cons.mpr ⟨?_, ih hq.2 fun y hy => hr y (by simp [hy])⟩
      intro y hy
      rcases List.mem_cons.mp ((placeRequest_perm r xs).mem_iff.mp hy) with rfl | hy
      · exact (KeyBefore.total (hr x (by simp))).resolve_right hb
      · exact hq.1 y hy

end Sys2Proof.Machine
end

