-- ==== Sys2Proof/Laws/Frames.lean ====
section
/-! SUPPORT. The change of an antenna record in the words of the claims, and which stores each shared operation can change. -/

namespace Sys2Proof.Machine

variable (s : State) (a : AntennaNo) (c : ContextNo)

/-! ### A change of an antenna record (R41) -/

theorem Antenna.watched_eq_iff (r r' : Antenna) : r'.watched = r.watched ↔ sameService r r' := by
  simp [Antenna.watched, sameService]

theorem Antenna.flagged_changed {r r' : Antenna} (h : r'.changed = true) : Antenna.flagged r r' = r' := by
  unfold Antenna.flagged
  split
  · rfl
  · rw [← h]

theorem State.changeAntenna_eq {f : Antenna → Antenna} (hf : (f (s.ant a)).changed = (s.ant a).changed) :
    s.changeAntenna a f =
      { s with antennas := s.antennas.set a ((s.ant a).flagged (f (s.ant a))),
               link := s.link.reportChange a (s.ant a) (f (s.ant a)) } := by
  unfold State.changeAntenna HostLink.reportChange Antenna.flagged
  simp only [State.ant_mapAnt_self, Antenna.watched_eq_iff]
  by_cases hs : sameService (s.ant a) (f (s.ant a))
  · rw [if_pos hs, if_pos (.inl hs), if_pos hs]
    rfl
  · rw [if_neg hs, if_neg hs]
    unfold State.setChangeFlag
    simp only [State.ant_mapAnt_self, hf]
    cases hc : (s.ant a).changed with
    | true =>
      have : ({ f (s.ant a) with changed := true } : Antenna) = f (s.ant a) := by rw [← hc, ← hf]
      rw [if_pos rfl, this, if_pos (.inr rfl)]
      rfl
    | false =>
      have hn : ¬ (sameService (s.ant a) (f (s.ant a)) ∨ false = true) := by simpa using hs
      rw [if_neg (by simp), if_neg hn]
      simp only [State.mapAnt, set_set, State.ant_mk, get_set_self]
      rfl

/-- A change of a record with the closing sweep that follows where it ends carrying (R26, R134). -/
theorem State.changeAndSweep_eq (late : Option ContextNo) {f : Antenna → Antenna}
    (hf : (f (s.ant a)).changed = (s.ant a).changed) :
    s.changeAndSweep a late f =
      if (s.ant a).carrying = true ∧ (f (s.ant a)).carrying = false then
        (s.recordChanged a (f (s.ant a))).closingSweep a late
      else s.recordChanged a (f (s.ant a)) := by
  unfold State.changeAndSweep
  simp only [State.changeAntenna_eq s a hf]
  have h : ((s.recordChanged a (f (s.ant a))).ant a).carrying = (f (s.ant a)).carrying := by
    simp only [State.recordChanged, State.ant_mk, get_set_self]
    unfold Antenna.flagged
    split <;> rfl
  simp only [State.recordChanged] at h
  rw [h]
  simp

/-! ### Counts (R147, R174) -/

theorem State.rosterCount_eq : s.rosterCount = countOf fun e => (s.entry e).isSome := by
  simp [State.rosterCount, toList_eq_map, List.filter_map, countOf]
  rfl

theorem State.busyContexts_eq : s.busyContexts = countOf fun c => (s.ctx c).isSome := by
  simp [State.busyContexts, toList_eq_map, List.filter_map, countOf]
  rfl

theorem Antenna.open_eq (r : Antenna) :
    r.open = decide (r.link = .serveCapable ∧ r.fault = false ∧ r.admin = .inService) := by
  cases h : r.link <;> cases h' : r.fault <;> cases h'' : r.admin <;> simp [Antenna.open, Antenna.carrying, h, h', h'']

theorem State.openAntennas_eq : s.openAntennas = countOf fun a => (s.ant a).open := by
  simp [State.openAntennas, toList_eq_map, List.filter_map, countOf]
  rfl

theorem State.attachedCount_eq :
    s.attachedCount = countOf fun e => (s.entry e).any fun x => x.state ≠ .unattached := by
  simp only [State.attachedCount, toList_eq_map, List.filter_map, countOf, List.length_map]
  congr 2
  funext e
  show (s.entry e).any _ = _
  cases s.entry e <;> simp [bne, BEq.beq, decide_not]

/-! ### What each operation can change -/

theorem State.notifyEnd_rest (e : EntryNo) (x : Entry) (k : Kind) :
    s.notifyEnd e x k = { s with link := (s.notifyEnd e x k).link } := by
  unfold State.notifyEnd; split <;> rfl

theorem State.endTransaction_rest :
    s.endTransaction c =
      { s with contexts := s.contexts.set c none, link := (s.endTransaction c).link,
               roster := (s.endTransaction c).roster } := by
  cases h : s.ctx c with
  | none => simp only [State.endTransaction, h]; rw [set_of_get h]
  | some y =>
    cases he : s.entry y.entry with
    | none =>
      simp only [State.endTransaction, h]
      have : (s.putCtx c none).entry y.entry = none := by simpa using he
      simp [he]; rfl
    | some z => rw [State.endTransaction_eq h he]

theorem State.postAwaited_rest (o : Order) :
    s.postAwaited c a o =
      { s with contexts := (s.postAwaited c a o).contexts, ports := (s.postAwaited c a o).ports } := by
  cases h : s.ctx c with
  | none => simp only [State.postAwaited, State.mapCtx, h, State.postOrder_eq]
  | some y => rw [State.postAwaited_eq h, State.postOrder_eq]

theorem State.tryTarget_rest (first : Bool) :
    (s.tryTarget c first).1 =
      { s with contexts := (s.tryTarget c first).1.contexts, antennas := (s.tryTarget c first).1.antennas,
               ports := (s.tryTarget c first).1.ports } := by
  cases h : s.ctx c with
  | none => simp only [State.tryTarget, h]
  | some y =>
    simp only [State.tryTarget, h]
    cases s.chooseTarget y first with
    | none => simp only [State.mapCtx_eq h]
    | some a =>
      simp only [State.mapCtx_eq h]
      generalize hu : ({ s with contexts := s.contexts.set c (some { y with target := some a }) } : State) = u
      have key : (u.seekAdmission c y a).1 =
          { u with contexts := (u.seekAdmission c y a).1.contexts, antennas := (u.seekAdmission c y a).1.antennas,
                   ports := (u.seekAdmission c y a).1.ports } := by
        unfold State.seekAdmission
        split
        · rfl
        · split
          · rfl
          · simp only
            split
            · simp only
              rw [State.postAwaited_rest, State.claim_eq]
              unfold State.mapCtx
              split <;> rfl
            · rfl
      rw [key, ← hu]

theorem State.raiseRequest_rest (e : EntryNo) (w : Raise) :
    s.raiseRequest e w =
      { s with queue := (s.raiseRequest e w).queue, nextOrder := (s.raiseRequest e w).nextOrder } := by
  unfold State.raiseRequest State.mergeRequest State.raiseIntoFull State.enqueue State.removeRequest
  split
  · rfl
  · split
    · rfl
    · split
      · rfl
      · simp only
        split
        · rfl
        · split
          · rfl
          · split <;> rfl

end Sys2Proof.Machine
end

