-- ==== Sys2Proof/Laws/Link.lean ====
section
/-! SUPPORT. What the transmitter's choice, the Notice Queue and the reply to a host command do to the Host Link. -/

namespace Sys2Proof.Machine

/-! ### The choice of the next frame -/

theorem HostLink.choose_busy {l : HostLink} {f : HostFrame} (h : l.transmitter = some f) : l.choose = l := by
  simp [HostLink.choose, h]

@[simp] theorem HostLink.choose_rate (l : HostLink) : l.choose.rate = l.rate := by
  unfold HostLink.choose HostLink.beginReply HostLink.beginNotice; grind

@[simp] theorem HostLink.choose_receiver (l : HostLink) : l.choose.receiver = l.receiver := by
  unfold HostLink.choose HostLink.beginReply HostLink.beginNotice; grind

@[simp] theorem HostLink.choose_mode (l : HostLink) : l.choose.mode = l.mode := by
  unfold HostLink.choose HostLink.beginReply HostLink.beginNotice; grind

@[simp] theorem HostLink.choose_selection (l : HostLink) : l.choose.selection = l.selection := by
  unfold HostLink.choose HostLink.beginReply HostLink.beginNotice; grind

@[simp] theorem HostLink.choose_flags (l : HostLink) : l.choose.flags = l.flags := by
  unfold HostLink.choose HostLink.beginReply HostLink.beginNotice; grind

@[simp] theorem HostLink.choose_domainAccrued (l : HostLink) : l.choose.domainAccrued = l.domainAccrued := by
  unfold HostLink.choose HostLink.beginReply HostLink.beginNotice; grind

/-- With no command in execution the choice begins none. -/
theorem HostLink.choose_execution_none {l : HostLink} (h : l.execution = none) : l.choose.execution = none := by
  unfold HostLink.choose HostLink.beginReply HostLink.beginNotice; grind

/-- With no command in execution, a transmitter that stays idle had no refusal to send. -/
theorem HostLink.choose_idle {l : HostLink} (h : l.execution = none) (ht : l.choose.transmitter = none) :
    l.choose.replies = [] := by
  revert ht; unfold HostLink.choose HostLink.beginReply HostLink.beginNotice; grind

/-! ### A command in execution whose reply is not built -/

/-- The command `code` is in execution, its reply is not built, and the transmitter has nothing else to begin. -/
structure InCommand (l : HostLink) (code : Byte) : Prop where
  execution : ∃ r n, l.execution = some { code := code, ahead := n, newRate := r }
  idle : l.transmitter = none → l.replies = []

/-- While a command's reply is not built, no frame is begun. -/
theorem InCommand.choose {l : HostLink} {code : Byte} (h : InCommand l code) : l.choose = l := by
  obtain ⟨⟨r, n, hx⟩, hi⟩ := h
  unfold HostLink.choose HostLink.beginReply
  cases ht : l.transmitter with
  | some f => rfl
  | none => simp [hx, hi ht]

/-- A notice of the command's own work is handed over and not begun (R167, R170). -/
theorem InCommand.queueNotice {l : HostLink} {code : Byte} (h : InCommand l code) (n : Notice) :
    l.queueNotice n =
      if !l.selects n then l
      else if l.notices.length < 32 then { l with notices := l.notices ++ [n] }
      else { l with flags := { l.flags with noticesDiscarded := true } } := by
  unfold HostLink.queueNotice
  have hc : InCommand { l with notices := l.notices ++ [n] } code := ⟨h.execution, h.idle⟩
  rw [hc.choose]; rfl

theorem InCommand.queueNotice_inCommand {l : HostLink} {code : Byte} (h : InCommand l code) (n : Notice) :
    InCommand (l.queueNotice n) code := by
  rw [h.queueNotice]; split
  · exact h
  · split <;> exact ⟨h.execution, h.idle⟩

variable {s t : State} {code : Byte} {f : HostFrame}

/-! ### The reply -/

@[simp] theorem State.reply_rate (t : State) (f : HostFrame) : (t.reply f).link.rate = t.link.rate := by
  simp [State.reply, HostLink.buildReply]

@[simp] theorem State.reply_receiver (t : State) (f : HostFrame) : (t.reply f).link.receiver = t.link.receiver := by
  simp [State.reply, HostLink.buildReply]

@[simp] theorem State.reply_mode (t : State) (f : HostFrame) : (t.reply f).link.mode = t.link.mode := by
  simp [State.reply, HostLink.buildReply]

@[simp] theorem State.reply_selection (t : State) (f : HostFrame) :
    (t.reply f).link.selection = t.link.selection := by
  simp [State.reply, HostLink.buildReply]

@[simp] theorem State.reply_flags (t : State) (f : HostFrame) : (t.reply f).link.flags = t.link.flags := by
  simp [State.reply, HostLink.buildReply]

@[simp] theorem State.reply_domainAccrued (t : State) (f : HostFrame) :
    (t.reply f).link.domainAccrued = t.link.domainAccrued := by
  simp [State.reply, HostLink.buildReply]

theorem State.reply_rest (t : State) (f : HostFrame) : t.reply f = { t with link := (t.reply f).link } := rfl

/-- The link once a command's reply is built: it is begun if the transmitter was idle. -/
theorem InCommand.reply_link (h : InCommand t.link code) (f : HostFrame) :
    ∃ x, t.link.execution = some x ∧ x.code = code ∧ (t.reply f).link =
      { t.link with
        execution := some { x with reply := some f, begun := t.link.transmitter.isNone },
        transmitter := some (t.link.transmitter.getD f) } := by
  obtain ⟨⟨r, n, hx⟩, hi⟩ := h
  refine ⟨_, hx, rfl, ?_⟩
  simp only [State.reply, State.wake_link, State.mapLink_link]
  unfold HostLink.choose HostLink.buildReply HostLink.beginReply
  cases ht : t.link.transmitter with
  | some g => simp [hx]
  | none => simp [hx, hi ht]

/-! ### A host command that is executed -/

/-- The link of an accepted command. -/
theorem State.accept_link (s : State) (code : Byte) :
    (s.accept code).link =
      { s.link with receiver := .hunting, execution := some { code := code, ahead := s.link.replies.length } } := rfl

/-- `t` is a state in which the command `code`, taken in `s`, is at work: its reply is not built, and what the transmitter
and the reply list held is there. -/
structure AtWork (s t : State) (code : Byte) : Prop where
  inCommand : InCommand t.link code
  receiver : t.link.receiver = .hunting
  transmitter : t.link.transmitter = s.wake.link.transmitter
  replies : t.link.replies = s.wake.link.replies
  rate : t.link.rate = s.link.rate

theorem State.accept_atWork (h : s.link.execution = none) : AtWork s (s.wake.accept code) code :=
  ⟨⟨⟨none, _, rfl⟩, fun ht => HostLink.choose_idle h ht⟩, rfl, rfl, rfl, HostLink.choose_rate _⟩

/-- The reply at the end of a command's work. -/
theorem AtWork.reply (h : AtWork s t code) (f : HostFrame) : Replied s (t.reply f) code f := by
  obtain ⟨x, hx, hc, hl⟩ := h.inCommand.reply_link f
  constructor
  · simp [hl, hc]
  · simp [hl, h.transmitter]
  · simpa using h.receiver
  · simp [hl, h.replies]
  · simpa using h.rate

/-- The reply changes no notice and no setting. -/
theorem AtWork.reply_link_kept (h : AtWork s t code) (f : HostFrame) : LinkKept t.link (t.reply f).link := by
  obtain ⟨x, -, -, hl⟩ := h.inCommand.reply_link f
  exact ⟨by simp, by simp, by simp, by simp, by simp [hl]⟩

theorem LinkKept.trans {a b c : HostLink} (h : LinkKept a b) (h' : LinkKept b c) : LinkKept a c :=
  ⟨h'.mode.trans h.mode, h'.selection.trans h.selection, h'.flags.trans h.flags,
    h'.domainAccrued.trans h.domainAccrued, h'.notices.trans h.notices⟩

theorem State.accept_link_kept (s : State) (code : Byte) : LinkKept s.link (s.accept code).link :=
  ⟨rfl, rfl, rfl, rfl, rfl⟩

/-- A host command with no other in execution comes to its body's conclusion. -/
theorem hostCommand_free {body : State → CommandReply} (h : s.link.execution = none) :
    hostCommand code body s = .next ((s.wake.accept code).conclude code (body (s.wake.accept code))) := by
  have h' : s.wake.link.execution = none := HostLink.choose_execution_none h
  unfold hostCommand State.runCommand
  rw [h']

/-- A body that refuses leaves the refusal and nothing else. -/
theorem hostCommand_refused {body : State → CommandReply} {r : RefusalCode} (h : s.link.execution = none)
    (hb : body (s.wake.accept code) = .refuse r) :
    ∃ t, hostCommand code body s = .next t ∧ Refused s t code r := by
  have hw := State.accept_atWork (code := code) h
  refine ⟨_, hostCommand_free h, ?_⟩
  rw [hb]
  exact ⟨hw.reply _, (State.accept_link_kept _ _).trans (hw.reply_link_kept _), rfl⟩

/-- A body that answers leaves the answer over the state of its work. -/
theorem hostCommand_answered {body : State → CommandReply} {p : List Byte} {u : State}
    (h : s.link.execution = none) (hb : body (s.wake.accept code) = .answer p u) (hw : AtWork s u code) :
    ∃ t, hostCommand code body s = .next t ∧ Replied s t code (answerFrame code p) ∧ LinkKept u.link t.link ∧
      t = { u with link := t.link } := by
  refine ⟨_, hostCommand_free h, ?_⟩
  rw [hb]
  exact ⟨hw.reply _, hw.reply_link_kept _, rfl⟩

/-- A body that answers and changes nothing. -/
theorem hostCommand_told {body : State → CommandReply} {p : List Byte} (h : s.link.execution = none)
    (hb : body (s.wake.accept code) = .answer p (s.wake.accept code)) :
    ∃ t, hostCommand code body s = .next t ∧ Told s t code p := by
  obtain ⟨t, ht, hr, hl, he⟩ := hostCommand_answered h hb (State.accept_atWork h)
  exact ⟨t, ht, hr, (State.accept_link_kept _ _).trans hl, he⟩

/-! ### Commands in the words of the claims -/

/-- A command that is executed comes to its body's conclusion in the state where it works. -/
theorem hostCommand_atWork {body : State → CommandReply} (h : s.link.execution = none) :
    hostCommand code body s = .next ((s.atWork code).conclude code (body (s.atWork code))) := hostCommand_free h

theorem State.atWork_atWork (h : s.link.execution = none) : AtWork s (s.atWork code) code := State.accept_atWork h

/-- Being at work depends on the link alone. -/
theorem AtWork.of_link (h : AtWork s t code) {u : State} (hu : u.link = t.link) : AtWork s u code :=
  ⟨hu ▸ h.inCommand, hu ▸ h.receiver, hu ▸ h.transmitter, hu ▸ h.replies, hu ▸ h.rate⟩

/-- A notice changes the held notices and the flags, while a command is at work. -/
theorem InCommand.queueNotice_kept {l : HostLink} (h : InCommand l code) (n : Notice) :
    (l.queueNotice n).receiver = l.receiver ∧ (l.queueNotice n).transmitter = l.transmitter ∧
      (l.queueNotice n).replies = l.replies ∧ (l.queueNotice n).rate = l.rate := by
  rw [h.queueNotice]; split
  · simp
  · split <;> simp

/-- A notice queued by a command leaves it at work. -/
theorem AtWork.queueNotice (h : AtWork s t code) (n : Notice) : AtWork s (t.queueNotice n) code := by
  obtain ⟨h1, h2, h3, h4⟩ := h.inCommand.queueNotice_kept n
  exact ⟨h.inCommand.queueNotice_inCommand n, h1.trans h.receiver, h2.trans h.transmitter, h3.trans h.replies,
    h4.trans h.rate⟩

/-- A body that answers leaves its answer over the state of its work. -/
theorem hostCommand_done {body : State → CommandReply} {p : List Byte} {u : State} (h : s.link.execution = none)
    (hb : body (s.atWork code) = .answer p u) (hw : AtWork s u code) :
    ∃ t, hostCommand code body s = .next t ∧ Done s t code p u.link ∧ t = { u with link := t.link } := by
  obtain ⟨t, ht, hr, hl, he⟩ := hostCommand_answered h hb hw
  exact ⟨t, ht, ⟨hr, hl⟩, he⟩

/-- The settings of the work state are those of the woken link. -/
theorem Done.woken {p : List Byte} (h : Done s t code p (s.atWork code).link) : Done s t code p s.wake.link :=
  ⟨h.reply, (State.accept_link_kept s.wake code).trans h.link⟩

end Sys2Proof.Machine
end

