-- ==== Sys2Proof/Laws/Operands.lean ====
section
/-! SUPPORT. What the operands of host commands come to: numbers from bytes, references to beltpacks, and the two wrappers of a command's body. -/

namespace Sys2Proof.Machine

/-! ### Numbers -/

theorem byte_toNat {n : Nat} (h : n < 256) : (byte n).toNat = n := by
  simp [byte, Nat.mod_eq_of_lt h]

theorem number?_byte {n : Nat} (hn : n ≤ 256) (i : Fin n) : number? n (byte i) = some i := by
  have hi : (byte i.val).toNat = i.val := byte_toNat (by omega)
  unfold number?
  simp [hi]

theorem number?_none {n : Nat} {b : Byte} (h : n ≤ b.toNat) : number? n b = none := by
  unfold number?; simp; omega

theorem number?_some {n : Nat} {b : Byte} {i : Fin n} (h : number? n b = some i) : b = byte i := by
  unfold number? at h
  split at h
  · obtain rfl := Option.some.inj h
    simp [byte]
  · cases h

theorem number?_eq_none {n : Nat} {b : Byte} : number? n b = none ↔ n ≤ b.toNat := by
  unfold number?; split <;> simp <;> omega

/-! ### References (R3) -/

variable {s : State} {ref : BeltpackRef} {e : EntryNo} {x : Entry}

theorem State.findId_some {id : BeltpackId} (he : s.entry e = some x) (hx : x.id = id)
    (hl : ∀ e' < e, ∀ y, s.entry e' = some y → y.id ≠ id) : s.findId id = some e := by
  unfold State.findId
  rw [List.find?_eq_some_iff_getElem]
  refine ⟨by simp [State.hasId, he, hx], e.val, by simp, by simp, ?_⟩
  intro j hj
  have hl' := hl ⟨j, by omega⟩ (by simpa [Fin.lt_def] using hj)
  simp only [List.getElem_finRange, State.hasId]
  cases hy : s.entry ⟨j, by omega⟩ with
  | none => simp [hy]
  | some y => simpa [hy] using hl' y hy

theorem State.findId_none {id : BeltpackId} : s.findId id = none ↔ UnknownId s id := by
  unfold State.findId UnknownId
  simp only [List.find?_eq_none, List.mem_finRange, forall_const, State.hasId]
  constructor
  · intro h e x he; have := h e; simp [he] at this; exact this
  · intro h e; cases he : s.entry e with
    | none => simp
    | some x => simpa using h e x he

/-- An index that the search finds is the first with the ID. -/
theorem State.findId_spec {id : BeltpackId} (h : s.findId id = some e) : ∃ x, HasId s id e x := by
  unfold State.findId at h
  rw [List.find?_eq_some_iff_getElem] at h
  obtain ⟨hp, i, hi, rfl, hl⟩ := h
  simp only [State.hasId, List.getElem_finRange] at hp
  cases he : s.entry ⟨i, by simpa using hi⟩ with
  | none => simp [he] at hp
  | some x =>
    refine ⟨x, by simpa using he, by simpa [he] using hp, ?_⟩
    intro e' he' y hy
    have := hl e'.val (by simpa [Fin.lt_def] using he')
    simpa [State.hasId, hy] using this

theorem State.findId_hasId {id : BeltpackId} (h : HasId s id e x) : s.findId id = some e :=
  State.findId_some h.1 h.2.1 h.2.2

theorem invalidId_iff (id : BeltpackId) : invalidId id = true ↔ id = 0x000000 ∨ id = 0xFFFFFF := by
  simp [invalidId]

theorem State.resolve_named (h : Named s ref e x) : s.resolve ref = .ok e := by
  obtain ⟨he, hr, hm⟩ := h
  cases ref with
  | compact b =>
    subst hm
    simp [State.resolve, number?_byte, he]
  | extended id =>
    have : invalidId id = false := by
      rw [← Bool.not_eq_true, invalidId_iff]; exact hr
    simp [State.resolve, this, State.findId_some he hm.1 hm.2]

theorem State.resolve_outOfRange (h : OutOfRange ref) : s.resolve ref = .error .badValue := by
  cases ref with
  | compact b => simp [State.resolve, number?_none h]
  | extended id => simp [State.resolve, (invalidId_iff id).mpr h]

theorem State.resolve_noEntry (h : ¬ OutOfRange ref) (hn : ∀ e x, ¬ Named s ref e x) :
    s.resolve ref = .error .noEntry := by
  cases ref with
  | compact b =>
    cases hb : number? 96 b with
    | none => exact absurd (number?_eq_none.mp hb) h
    | some e =>
      have := number?_some hb
      cases he : s.entry e with
      | none => simp [State.resolve, hb, he]
      | some x => exact absurd ⟨he, h, this⟩ (hn e x)
  | extended id =>
    have hi : invalidId id = false := by rw [← Bool.not_eq_true, invalidId_iff]; exact h
    cases hf : s.findId id with
    | none => simp [State.resolve, hi, hf]
    | some e =>
      obtain ⟨x, hx⟩ := State.findId_spec hf
      exact absurd ⟨hx.1, h, hx.2⟩ (hn e x)

/-! ### The wrappers -/

theorem withAntenna_byte (a : AntennaNo) (k : AntennaNo → State → CommandReply) : withAntenna (byte a) k s = k a s := by
  simp [withAntenna, number?_byte]

theorem withAntenna_above {b : Byte} (h : 24 ≤ b.toNat) (k : AntennaNo → State → CommandReply) :
    withAntenna b k s = .refuse .badValue := by
  simp [withAntenna, number?_none h]

section
variable {α : Type} {values : Option α} {held : Bool} {k : EntryNo → Entry → α → State → CommandReply}

theorem withBeltpack_outOfRange (h : OutOfRange ref) : withBeltpack ref values held k s = .refuse .badValue := by
  simp [withBeltpack, State.resolve_outOfRange h]

theorem withBeltpack_noEntry (h : ¬ OutOfRange ref) (hn : ∀ e x, ¬ Named s ref e x) :
    withBeltpack ref values held k s = .refuse .noEntry := by
  simp [withBeltpack, State.resolve_noEntry h hn]

theorem withBeltpack_badValue (h : Named s ref e x) (hv : values = none) :
    withBeltpack ref values held k s = .refuse .badValue := by
  simp [withBeltpack, State.resolve_named h, h.1, hv]

theorem withBeltpack_posted {v : α} (h : Named s ref e x) (hv : values = some v) (hh : held = true)
    (hp : x.posted ≠ none) : withBeltpack ref values held k s = .refuse .posted := by
  have : x.posted.isSome = true := by cases hx : x.posted with
    | none => exact absurd hx hp
    | some _ => rfl
  simp [withBeltpack, State.resolve_named h, h.1, hv, hh, this]

/-- A command whose reference, values and posted fault pass comes to its own checks and effect. -/
theorem withBeltpack_taken {v : α} (h : Named s ref e x) (hv : values = some v) (hp : held = true → x.posted = none) :
    withBeltpack ref values held k s = k e x v s := by
  have : (held && x.posted.isSome) = false := by
    cases held with
    | false => rfl
    | true => simp [hp rfl]
  simp [withBeltpack, State.resolve_named h, h.1, hv, this]
end

/-- References mean the same in a state with the same roster. -/
theorem Named.of_roster {t : State} (h : Named s ref e x) (ht : t.roster = s.roster) : Named t ref e x := by
  have : ∀ e, t.entry e = s.entry e := fun e => by simp [State.entry, ht]
  simpa [Named, this] using h

end Sys2Proof.Machine
end

