-- ==== Sys2Proof/Laws/Survey.lean ====
section
/-! SUPPORT. The Survey Unit: placing a candidate by its score (R62), and the steps of a score (R60). -/

namespace Sys2Proof.Machine

/-! ### The candidate list -/

theorem Candidate.before_iff (x y : Candidate) : x.before y = true ↔ Outranks x y := by
  simp [Candidate.before, Outranks]

theorem Outranks.trans {x y z : Candidate} (h : Outranks x y) (h' : Outranks y z) : Outranks x z := by
  simp only [Outranks, BitVec.lt_def, Fin.lt_def, ← BitVec.toNat_inj] at *
  omega

theorem Outranks.total {x y : Candidate} (h : x.antenna ≠ y.antenna) : Outranks x y ∨ Outranks y x := by
  simp only [Outranks, BitVec.lt_def, Fin.lt_def, ← BitVec.toNat_inj, ne_eq, Fin.ext_iff] at *
  omega

theorem placeCandidate_perm (x : Candidate) (l : List Candidate) : (placeCandidate x l).Perm (x :: l) := by
  induction l with
  | nil => exact .refl _
  | cons y ys ih =>
    unfold placeCandidate
    split
    · exact .refl _
    · exact (ih.cons y).trans (.swap x y ys)

theorem placeCandidate_sorted {x : Candidate} {l : List Candidate} (hl : l.Pairwise Outranks)
    (hx : ∀ y ∈ l, y.antenna ≠ x.antenna) : (placeCandidate x l).Pairwise Outranks := by
  induction l with
  | nil => simp [placeCandidate]
  | cons y ys ih =>
    rw [List.pairwise_cons] at hl
    unfold placeCandidate
    split
    · rename_i hb
      have hb := (Candidate.before_iff x y).mp hb
      refine List.pairwise_cons.mpr ⟨?_, List.pairwise_cons.mpr hl⟩
      intro z hz
      rcases List.mem_cons.mp hz with rfl | hz
      · exact hb
      · exact hb.trans (hl.1 z hz)
    · rename_i hb
      have hb : ¬ Outranks x y := fun h => hb ((Candidate.before_iff x y).mpr h)
      refine List.pairwise_cons.mpr ⟨?_, ih hl.2 fun z hz => hx z (by simp [hz])⟩
      intro z hz
      rcases List.mem_cons.mp ((placeCandidate_perm x ys).mem_iff.mp hz) with rfl | hz
      · exact (Outranks.total (hx y (by simp))).resolve_right hb
      · exact hl.1 z hz

/-- A candidate placed in a kept list that has room and not its antenna leaves a kept list. -/
theorem placeCandidate_kept {x : Candidate} {l : List Candidate} (hl : ListKept l) (hn : l.length < 4)
    (hx : ∀ y ∈ l, y.antenna ≠ x.antenna) : ListKept (placeCandidate x l) := by
  have hp := placeCandidate_perm x l
  refine ⟨by rw [hp.length_eq]; simp; omega, ?_, placeCandidate_sorted hl.order hx⟩
  rw [hp.pairwise_iff (fun h => Ne.symm h), List.pairwise_cons]
  exact ⟨fun y hy => Ne.symm (hx y hy), hl.antennas⟩

theorem dropCandidate_eq (a : AntennaNo) (l : List Candidate) : dropCandidate a l = l.filter (·.antenna ≠ a) := by
  simp [dropCandidate, bne, beq_eq_decide]

/-- A list that loses candidates stays kept. -/
theorem ListKept.sublist {l l' : List Candidate} (hl : ListKept l) (h : l'.Sublist l) : ListKept l' :=
  ⟨h.length_le.trans hl.length, hl.antennas.sublist h, hl.order.sublist h⟩

/-- A kept list without its last candidate's antenna is the list without its last place. -/
theorem ListKept.drop_last {l : List Candidate} {last : Candidate} (hl : ListKept l) (h : l.getLast? = some last) :
    l.filter (·.antenna ≠ last.antenna) = l.dropLast := by
  obtain ⟨ys, rfl⟩ := List.getLast?_eq_some_iff.mp h
  have ha := hl.antennas
  rw [List.pairwise_append] at ha
  rw [List.filter_append, List.dropLast_concat]
  have h1 : ys.filter (·.antenna ≠ last.antenna) = ys := by
    rw [List.filter_eq_self]
    intro y hy
    simpa using ha.2.2 y hy last (by simp)
  rw [h1]
  simp

/-! ### Scores (R60) -/

/-- The step of a score stays between 0 and the difference. -/
theorem smoothingStep_between (d : Int) (k : Nat) :
    (0 ≤ d → 0 ≤ smoothingStep d k ∧ smoothingStep d k ≤ d) ∧
    (d ≤ 0 → d ≤ smoothingStep d k ∧ smoothingStep d k ≤ 0) := by
  have hp : (0 : Int) < 2 ^ k := by positivity
  have habs : (d.tdiv (2 ^ k)).natAbs ≤ d.natAbs := by
    rw [Int.natAbs_tdiv]; exact Nat.div_le_self _ _
  constructor
  · intro h
    have h0 : 0 ≤ d.tdiv (2 ^ k) := Int.tdiv_nonneg h hp.le
    simp only [smoothingStep]
    split
    · rcases Int.lt_or_eq_of_le h with h' | rfl
      · rw [Int.sign_eq_one_of_pos h']; omega
      · simp
    · omega
  · intro h
    have h0 : d.tdiv (2 ^ k) ≤ 0 := by
      have := Int.tdiv_nonneg (a := -d) (b := 2 ^ k) (by omega) hp.le
      rw [Int.neg_tdiv] at this
      omega
    simp only [smoothingStep]
    split
    · rcases Int.lt_or_eq_of_le h with h' | rfl
      · rw [Int.sign_eq_neg_one_of_neg h']; omega
      · simp
    · omega

theorem smooth_toNat {k : Nat} (score sample : Byte) (h1 : 1 ≤ k) (h7 : k ≤ 7) :
    ((smooth k score sample).toNat : Int) = score.toNat + smoothingStep ((sample.toNat : Int) - score.toNat) k := by
  unfold smooth
  rw [if_neg (by omega), if_neg (by omega)]
  have hs := smoothingStep_between ((sample.toNat : Int) - score.toNat) k
  have ha := sample.isLt
  have hb := score.isLt
  rw [BitVec.toNat_ofInt, Int.toNat_of_nonneg (Int.emod_nonneg _ (by decide))]
  apply Int.emod_eq_of_lt
  · omega
  · omega

end Sys2Proof.Machine
end

