-- ==== Sys2Proof/Tests/Slice0.lean ====
section
/-! SUPPORT. Tests of the model on small states: the WellFormed smoke tests, the spec's example frames, and for every statement with hypotheses a state and operands that meet them. -/

namespace Sys2Proof.Tests

open Sys2Proof Sys2Proof.Machine

/-! ### Small states -/

/-- The next state of a step. -/
def after : StepOutcome → State
  | .next t => t
  | _ => .reset

/-- The reply of the command in execution after a step. -/
def reply (o : StepOutcome) : Option HostFrame := (after o).link.execution.bind (·.reply)

/-- The bytes of that reply. -/
def wire (o : StepOutcome) : List Byte := ((reply o).map HostFrame.bytes).getD []

/-- A Host Link with nothing to send. -/
def quiet : HostLink := { notices := [] }

/-- The beltpack of 13.4. -/
def pack : Entry := { id := 0x2E11B4, cls := 2, groupA := some 7, groupB := none }

/-- The same beltpack in service at slot 2/1. -/
def served : Entry := { pack with state := .served, serving := some (2, 1), survey := { servingScore := some 90 } }

/-- A Serve-capable antenna. -/
def unit : Antenna := { link := .serveCapable }

/-- The trunk runs, the beltpack is entry 5, context 0 and slot 2/1 are as given, antennas 2 and 3 are open. -/
def scene (x : Entry) (y : Option Context) (v : Slot) : State :=
  { link := quiet, running := true,
    roster := (Vector.replicate 96 none).set (5 : EntryNo) (some x),
    contexts := (Vector.replicate 8 none).set (0 : ContextNo) y,
    antennas := ((Vector.replicate 24 ({} : Antenna)).set (2 : AntennaNo)
      { unit with slots := (Vector.replicate 8 .free).set (1 : SlotNo) v }).set (3 : AntennaNo) unit }

/-- A transaction of entry 5 in a phase. -/
def run (k : Kind) (p : Phase) : Context :=
  { entry := 5, cause := .survey, cls := 2, kind := k, source := if k = .move then some (2, 1) else none,
    explicit := none, target := some 3, targetSlot := some 0, phase := p, exclusion := 0, retry := 0,
    displaced := false }

/-- A request of entry 5. -/
def ask (e : EntryNo) (k : Cause) (held : Option Nat) : Request :=
  { entry := e, cause := k, cls := 2, explicit := none, exclusion := 0, retry := 0, displaced := false,
    notBefore := held, order := 0 }

theorem scene_entry (x : Entry) (y : Option Context) (v : Slot) : (scene x y v).entry 5 = some x := get_set_self _ _ _

theorem scene_others (x : Entry) (y : Option Context) (v : Slot) {e : EntryNo} (h : e ≠ 5) :
    (scene x y v).entry e = none := by
  show ((Vector.replicate 96 none).set (5 : EntryNo) (some x)).get e = none
  rw [get_set_ne _ _ (Ne.symm h)]
  simp [Vector.get]

theorem scene_hasId (x : Entry) (y : Option Context) (v : Slot) : HasId (scene x y v) x.id 5 x :=
  ⟨scene_entry x y v, rfl, fun e h z hz => by rw [scene_others x y v (ne_of_lt h)] at hz; cases hz⟩

theorem scene_named (x : Entry) (y : Option Context) (v : Slot) : Named (scene x y v) (.compact 5) 5 x :=
  ⟨scene_entry x y v, by simp [OutOfRange], rfl⟩

theorem scene_named_id (y : Option Context) (v : Slot) : Named (scene pack y v) (.extended 0x2E11B4) 5 pack :=
  ⟨scene_entry pack y v, by simp [OutOfRange], (scene_hasId pack y v).2⟩

theorem scene_unknown (x : Entry) (y : Option Context) (v : Slot) {id : BeltpackId} (h : x.id ≠ id) :
    UnknownId (scene x y v) id := by
  intro e z hz
  by_cases he : e = 5
  · subst he
    rw [scene_entry] at hz
    obtain rfl := Option.some.inj hz
    exact h
  · rw [scene_others x y v he] at hz; cases hz

/-! ### WellFormed: terms that the check refuses -/

theorem test_wellFormed_refuses_short_report : (Instr.injectSighting 0 [1]).wellFormed = false := by decide
theorem test_wellFormed_refuses_long_report : (Instr.injectArrival 0 [1, 2, 3, 4, 5]).wellFormed = false := by decide
theorem test_wellFormed_refuses_unknown_code : (Instr.commandFrameLost 0x06 []).wellFormed = false := by decide
theorem test_wellFormed_refuses_bad_length : (Instr.commandFrameLost 0x20 [1, 2, 3]).wellFormed = false := by decide
theorem test_wellFormed_takes_commands :
    (Instr.injectSeek 0 [1, 2, 3, 4]).wellFormed = true ∧ (Instr.commandFrameLost 0x23 [1, 2, 3]).wellFormed = true ∧
      Instr.dispatch.wellFormed = true := by decide

/-! ### The spec's example frames (12.7, 13.4, 13.5, R151) -/

theorem test_enrol_answer_bytes :
    wire (exec (.enrolBeltpack 0x3A07C1 1 4 0) State.reset) = [0xC5, 0x52, 0x20, 0x01, 0x00, 0x73] := by decide

theorem test_enrol_frame_bytes :
    (after (execAll ([0xC5, 0x51, 0x20, 0x06, 0x3A, 0x07, 0xC1, 0x01, 0x04, 0x00, 0x8E].map Instr.rxdByteTaken)
      State.reset)).entry 0 = some { id := 0x3A07C1, cls := 1, groupA := some 4, groupB := none } := by decide

theorem test_duplicate_refusal_bytes :
    (refusalFrame 0x20 .duplicate).bytes = [0xC5, 0x53, 0x20, 0x01, 0x13, 0x61] := by decide

theorem test_drain_complete_bytes :
    (Notice.drainComplete 11 .moves).frame.bytes = [0xC5, 0x54, 0x88, 0x02, 0x0B, 0x00, 0xD5] := by decide

theorem test_lost_and_gap_bytes :
    (refusalFrame 0x02 .lost).bytes = [0xC5, 0x53, 0x02, 0x01, 0x04, 0x54] ∧
      (refusalFrame 0x00 .gap).bytes = [0xC5, 0x53, 0x00, 0x01, 0x03, 0x51] := by decide

theorem test_handoff_held_bytes :
    (Notice.handoffHeld 90 0x2E11B4 .noArrival 0x08 (some 5) .survey).frame.bytes.take 12 =
      [0xC5, 0x54, 0x83, 0x08, 0x5A, 0x2E, 0x11, 0xB4, 0x04, 0x08, 0x05, 0x06] := by decide

theorem test_order_bytes :
    (Sent.order ⟨.cue 3, 0x2E11B4, 0, .nobody⟩).frame.take 8 = [0xD3, 0x03, 0x05, 0x2E, 0x11, 0xB4, 0x03, 0x00] ∧
      (Sent.order ⟨.reserve (some 7) none, 0x2E11B4, 2, .nobody⟩).frame.take 9 =
        [0xD3, 0x02, 0x06, 0x2E, 0x11, 0xB4, 0x02, 0x07, 0x00] := by decide

theorem test_probe_bytes : Sent.probe.frame = [0xD3, 0x01, 0x00, 0xD8, 0x19] := by decide

/-! ### Witnesses: steps, reset, and the Host Link's commands -/

theorem witness_StepRunsTheFrontCommand :
    ({ State.reset with pending := [.identify, .dispatch] } : State).pending = .identify :: [.dispatch] ∧
      State.reset.pending = [] := ⟨rfl, rfl⟩

theorem witness_IdentifyAnswersTheIdentity : State.reset.link.execution = none ∧
    wire (exec .identify State.reset) =
      [0xC5, 0x52, 0x01, 0x0E, 0x0E, 0x5A, 0x01, 0x01, 0xA0, 0x01, 24, 8, 4, 96, 16, 8, 32, 8, 0xEC] := by decide

theorem witness_ReadPolicyAnswersTheFields : State.reset.link.execution = none ∧
    reply (exec .readPolicy State.reset) =
      some (answerFrame 0x09 [12, 3, 2, 40, 60, 20, 63, 20, 5, 15, 8, 1, 25, 1, 0, 1]) := by decide

theorem witness_ReadDomainStatusReportsAndClears : State.reset.link.execution = none ∧
    reply (exec .readDomainStatus { State.reset with link := { quiet with flags := ⟨true, false, true, false, true⟩ } }) =
      some (answerFrame 0x02 [0, 0, 0, 0, 0, 0, 0x15, 0]) := by decide

theorem witness_SetLinkRateWaitsForItsAnswer : State.reset.link.execution = none ∧
    reply (exec (.setLinkRate 4) State.reset) = some (answerFrame 0x03 []) ∧
    reply (exec (.setLinkRate 5) State.reset) = some (refusalFrame 0x03 .badValue) := by decide

theorem witness_SetNoticeModeSetsModeAndSelection : State.reset.link.execution = none ∧
    (after (exec (.setNoticeMode 1 0x07F7) State.reset)).link.selection = 0x07FF ∧
    reply (exec (.setNoticeMode 2 0) State.reset) = some (refusalFrame 0x04 .badValue) ∧
    reply (exec (.setNoticeMode 0 0x0800) State.reset) = some (refusalFrame 0x04 .badValue) := by decide

theorem witness_FetchNoticeTakesTheOldest :
    State.reset.link.execution = none ∧ State.reset.link.mode = .push ∧
    (let l : HostLink := { quiet with mode := .pull }
     l.execution = none ∧ l.mode = .pull ∧ l.notices = [] ∧
      ({ l with notices := [.drainComplete 11 .moves] } : HostLink).notices = .drainComplete 11 .moves :: []) := by decide

theorem witness_SetPolicyItemStoresFieldsInRange : State.reset.link.execution = none ∧
    reply (exec (.setPolicyItem 0 0) State.reset) = some (refusalFrame 0x08 .badValue) ∧
    reply (exec (.setPolicyItem 1 63) State.reset) = some (answerFrame 0x08 [1, 63]) ∧
    reply (exec (.setPolicyItem 1 64) State.reset) = some (refusalFrame 0x08 .badValue) ∧
    reply (exec (.setPolicyItem 8 1) State.reset) = some (refusalFrame 0x08 .badValue) ∧
    reply (exec (.setPolicyItem 16 1) State.reset) = some (answerFrame 0x08 [16, 1]) ∧
    reply (exec (.setPolicyItem 17 0) State.reset) = some (refusalFrame 0x08 .badValue) := by decide

/-! ### Witnesses: frames on the Host Link -/

/-- A frame on TXD, and a refusal that waits. -/
def onLine : HostFrame := answerFrame 0x09 []
def waits : HostFrame := refusalFrame 0x02 .lost

/-- A command in execution, at each stage of its reply. -/
def working (begun : Bool) (ahead : Nat) (rate : Option LinkRate) : Execution :=
  { code := 0x09, reply := some onLine, begun := begun, ahead := ahead, newRate := rate }

theorem witness_IdleTransmitterChoosesInOrder :
    ({ quiet with transmitter := some onLine } : HostLink).choose = { quiet with transmitter := some onLine } ∧
    ({ quiet with execution := some (working false 1 none), replies := [waits] } : HostLink).choose =
      { quiet with execution := some (working false 0 none), transmitter := some waits } ∧
    ({ quiet with execution := some (working false 0 none), replies := [waits] } : HostLink).choose =
      { quiet with execution := some (working true 0 none), replies := [waits], transmitter := some onLine } ∧
    ({ quiet with execution := some { code := 9, ahead := 0 } } : HostLink).choose =
      { quiet with execution := some { code := 9, ahead := 0 } } ∧
    ({ quiet with replies := [waits] } : HostLink).choose = { quiet with transmitter := some waits } ∧
    ({} : HostLink).choose = { quiet with transmitter := some Notice.started.frame } ∧
    ({ mode := .pull } : HostLink).choose = { mode := .pull } ∧
    ({ receiver := .inFrame [] } : HostLink).choose = { receiver := .inFrame [] } := by decide

theorem witness_FrameSentEndsTheTransmission :
    (let l : HostLink := { quiet with transmitter := some onLine }
     l.transmitter = some onLine ∧ l.execution = none) ∧
    (working false 0 none).begun = false ∧ (working true 0 none).newRate = none ∧
    (let x := working true 0 (some .bps57600)
     x.begun = true ∧ x.newRate = some .bps57600 ∧
     ((after (exec .frameSent { State.reset with
        link := { quiet with transmitter := some onLine, execution := some x, receiver := .inFrame [0x51, 9] } })).link.rate,
      (after (exec .frameSent { State.reset with
        link := { quiet with transmitter := some onLine, execution := some x,
                             receiver := .inFrame [0x51, 9] } })).link.transmitter) =
       (.bps57600, some (refusalFrame 9 .gap))) := by decide

theorem witness_UnexecutedFramesAreRefused :
    (State.reset.link.execution ≠ none → State.reset.link.transmitter ≠ none) ∧ State.reset.link.receiver = .hunting ∧
    (let l : HostLink := { quiet with execution := some (working true 0 none), transmitter := some onLine,
                                      receiver := .inFrame [] }
     l.execution ≠ none ∧ l.transmitter ≠ none ∧ l.receiver = .inFrame [] ∧ ([] : List Byte).length ∈ commandLengths 0x02) := by decide

theorem witness_HostBytesSpellTheFrame :
    State.reset.link.receiver = .hunting ∧ (List.replicate 240 (0 : Byte)).length ≤ 240 ∧ 240 < (241 : Byte).toNat ∧
      (0xC4 : Byte) ≠ 0xC5 := ⟨rfl, by rw [List.length_replicate], by decide, by decide⟩

theorem witness_HostCommandIsItsFrame :
    hostFrame (.injectSignOff 23 [1, 2, 3]) = some (0x16, [23, 0x47, 1, 2, 3]) ∧
      (Instr.injectSignOff 23 [1, 2, 3]).wellFormed = true := by decide

theorem witness_NoticeIsDroppedPlacedOrDiscarded :
    (let l : HostLink := { quiet with selection := 0x0008 }
     ¬ (Notice.started.index = 3 ∨ l.selection.getLsbD Notice.started.index = true) ∧
      (Notice.handoffHeld 0 1 .refused 0 none .fade).index = 3) ∧
    (let l : HostLink := { notices := List.replicate 32 .started, transmitter := some onLine }
     l.selection.getLsbD Notice.started.index = true ∧ 32 ≤ l.notices.length) ∧
    quiet.selection.getLsbD 10 = true ∧ quiet.notices.length < 32 := by decide

/-! ### Witnesses: the trunk and the antennas -/

/-- The part after reset with antenna 0 as given. -/
def withAnt (r : Antenna) : State := { State.reset with antennas := (Vector.replicate 24 ({} : Antenna)).set (0 : AntennaNo) r }

/-- Slot 2/1 is in use. -/
def occupiedScene : State := scene served none (.occupied 5)

theorem witness_AntennaAbove23IsRefused : State.reset.link.execution = none ∧ 24 ≤ (24 : Byte).toNat ∧
    reply (exec (.readAntenna 23) State.reset) ≠ some (refusalFrame 0x12 .badValue) := by decide

theorem witness_TrunkStartBeginsToProbe :
    State.reset.link.execution = none ∧ State.reset.running = false ∧ (State.reset.port 23).inFlight = none ∧
    occupiedScene.link.execution = none ∧ occupiedScene.running = true ∧
    ((after (exec .trunkStart State.reset)).port 23).inFlight = some ⟨.probe, 2, none⟩ := by decide +kernel

theorem witness_TrunkStopClearsTheTrunk :
    State.reset.link.execution = none ∧ State.reset.running = false ∧
    occupiedScene.link.execution = none ∧ occupiedScene.running = true ∧
    ((after (exec .trunkStop occupiedScene)).entry 5).map (·.state) = some .unattached := by decide +kernel

theorem witness_ReadAntennaAnswersItsRecord : occupiedScene.link.execution = none ∧
    reply (exec (.readAntenna 2) occupiedScene) = some (answerFrame 0x12
      [2, 2, 0, 0, 0, 0x03, 0, 0, 0, 0, 0xFF, 2, 5, 0, 0xFF, 0, 0xFF, 0, 0xFF, 0, 0xFF, 0, 0xFF, 0, 0xFF,
       0, 0, 0, 0, 0, 0, 0, 0]) := by decide

theorem witness_AntennaActionsSetTheirFields :
    State.reset.link.execution = none ∧ ((withAnt { admin := .outOfService }).ant 0).admin = .outOfService ∧
    (State.reset.ant 23).admin ≠ .outOfService ∧ AllFree State.reset 23 ∧
    occupiedScene.link.execution = none ∧ (occupiedScene.ant 2).admin ≠ .outOfService ∧ ¬ AllFree occupiedScene 2 ∧
    (State.reset.ant 0).link ≠ .serveCapable ∧
    ((withAnt { unit with fault := true }).ant 0).link = .serveCapable ∧
    ((withAnt { unit with fault := true }).ant 0).fault = true ∧ (occupiedScene.ant 2).link = .serveCapable ∧
    (occupiedScene.ant 2).fault = false := by decide

theorem witness_OutOfServiceActionNeedsFreeSlots :
    (withAnt { admin := .outOfService }).link.execution = none ∧
    ((withAnt { admin := .outOfService }).ant 0).admin = .outOfService ∧
    (State.reset.ant 0).admin ≠ .outOfService ∧ AllFree State.reset 0 ∧
    (occupiedScene.ant 2).admin ≠ .outOfService ∧ ¬ AllFree occupiedScene 2 := by decide

theorem witness_ForceOutTakesOutOfService :
    (withAnt { admin := .outOfService }).link.execution = none ∧
    ((withAnt { admin := .outOfService }).ant 0).admin = .outOfService ∧
    (State.reset.ant 0).admin ≠ .outOfService ∧ (State.reset.ant 0).carrying = false ∧ Rested State.reset ∧
    (occupiedScene.ant 2).admin ≠ .outOfService ∧ (occupiedScene.ant 2).carrying = true ∧
    ((after (exec (.forceOut 2) occupiedScene)).entry 5).map (·.state) = some .lost := by decide

theorem witness_SetPortLoopbackSetsTheMode :
    State.reset.link.execution = none ∧ 4 ≤ (4 : Byte).toNat ∧ ¬ AllFree occupiedScene 2 ∧
    AllFree State.reset 0 ∧ (State.reset.ant 0).loopback = .off ∧ (State.reset.ant 0).loopback ≠ .silent ∧
    ((after (exec (.setPortLoopback 0 3) State.reset)).ant 0).loopback = .silent ∧
    ((after (exec (.setPortLoopback 3 1) occupiedScene)).ant 3).link = .absent := by decide

/-! ### Witnesses: the commands about beltpacks -/

/-- The beltpack with a posted fault. -/
def posted : Entry := { served with posted := some ⟨.noArrival, 0x08, some 3, .survey⟩ }

theorem witness_ReferencesAreCheckedFirst :
    State.reset.link.execution = none ∧ OutOfRange (.compact 96) ∧ OutOfRange (.extended 0xFFFFFF) ∧
    (¬ OutOfRange (.compact 95) ∧ ∀ e x, ¬ Named State.reset (.compact 95) e x) ∧
    (Named (scene posted none .free) (.compact 5) 5 posted ∧ ¬ (2 : Byte).toNat ≤ 1 ∧ (1 : Byte).toNat ≤ 1 ∧
      posted.posted ≠ none) ∧
    beltpackCommand (.setPin (.compact 5) 2) = some (.compact 5, 0x25, (2 : Byte).toNat ≤ 1, true) := by
  refine ⟨rfl, by simp [OutOfRange], by simp [OutOfRange], ⟨by simp [OutOfRange], ?_⟩,
    ⟨scene_named _ _ _, by decide, by decide, by decide⟩, rfl⟩
  rintro e x ⟨h, -, h'⟩
  have : ∀ e : EntryNo, State.reset.entry e = none := by decide
  rw [this e] at h
  cases h

/-- A full roster, for the checks alone. -/
def full : State := { State.reset with roster := Vector.replicate 96 (some pack) }

theorem witness_EnrolMakesAnEntry :
    State.reset.link.execution = none ∧ ¬ groupsInRange 63 63 ∧ groupsInRange 0 63 ∧ groupsInRange 0 0 ∧
    (∃ e x, (scene pack none .free).entry e = some x ∧ x.id = 0x2E11B4) ∧
    ((∀ e, full.entry e ≠ none) ∧ ¬ ∃ e x, full.entry e = some x ∧ x.id = 1) ∧
    ((¬ ∃ e x, State.reset.entry e = some x ∧ x.id = 1) ∧ State.reset.entry 0 = none) ∧
    reply (exec (.enrolBeltpack 1 3 0 63) State.reset) = some (answerFrame 0x20 [0]) ∧
    reply (exec (.enrolBeltpack 1 4 0 63) State.reset) = some (refusalFrame 0x20 .badValue) := by
  refine ⟨rfl, by decide, by decide, by decide, ⟨5, pack, scene_entry _ _ _, rfl⟩, ⟨by decide, ?_⟩, ⟨?_, rfl⟩, by decide,
    by decide⟩
  · rintro ⟨e, x, h, hx⟩
    have : ∀ e : EntryNo, full.entry e = some pack := by decide
    rw [this e] at h
    obtain rfl := Option.some.inj h
    revert hx; decide
  · rintro ⟨e, x, h, -⟩
    have : ∀ e : EntryNo, State.reset.entry e = none := by decide
    rw [this e] at h; cases h

/-- The beltpack while its transaction runs in context 0. -/
def inTransit : Entry := { served with state := .moving, context := some 0 }

theorem witness_WithdrawRemovesTheEntry :
    (Named (scene inTransit none .free) (.compact 5) 5 inTransit ∧ inTransit.posted = none ∧ inTransit.context ≠ none) ∧
    Unsettled (scene pack none (.releasing 5)) 5 ∧
    (Named occupiedScene (.compact 5) 5 served ∧ served.posted = none ∧ served.context = none ∧
      ¬ Unsettled occupiedScene 5 ∧ served.state = .served) ∧
    (Named (scene pack none .free) (.extended 0x2E11B4) 5 pack ∧ pack.posted = none ∧ pack.context = none ∧
      ¬ Unsettled (scene pack none .free) 5 ∧ pack.state = .unattached) ∧
    (after (exec (.withdrawBeltpack (.compact 5)) (scene pack none .free))).entry 5 = none :=
  ⟨⟨scene_named _ _ _, by decide, by decide⟩, ⟨2, 1, by decide⟩,
    ⟨scene_named _ _ _, by decide, by decide, by decide, by decide⟩,
    ⟨scene_named_id _ _, by decide, by decide, by decide, by decide⟩, by decide⟩

theorem witness_BeltpackReadsAnswerTheEntry :
    Named occupiedScene (.compact 5) 5 served ∧ occupiedScene.link.execution = none ∧
    reply (exec (.readBeltpack (.compact 5)) occupiedScene) =
      some (answerFrame 0x22 [0x03, 5, 0x2E, 0x11, 0xB4, 2, 2, 7, 0, 0, 0, 0, 90, 2, 1]) ∧
    reply (exec (.readConditions (.compact 5)) occupiedScene) = some (answerFrame 0x29 [0, 0]) :=
  ⟨scene_named _ _ _, rfl, by decide, by decide⟩

/-- The beltpack in service where its group and others fill the lanes. -/
def lanesScene (l : Lanes) : State :=
  { occupiedScene with antennas := occupiedScene.antennas.set (2 : AntennaNo) { occupiedScene.ant 2 with lanes := l } }

/-- Group 7 once, and three more groups. -/
def fullLanes : Lanes := #v[some ⟨7, 1⟩, some ⟨8, 2⟩, some ⟨9, 1⟩, some ⟨10, 1⟩]

theorem fullLanes_apart : LanesApart fullLanes := by
  have h : ∀ i, ∃ l, fullLanes.get i = some l ∧ 0 < l.users := fun i => by
    fin_cases i
    exacts [⟨⟨7, 1⟩, rfl, by decide⟩, ⟨⟨8, 2⟩, rfl, by decide⟩, ⟨⟨9, 1⟩, rfl, by decide⟩, ⟨⟨10, 1⟩, rfl, by decide⟩]
  have hg : ∀ i j, (fullLanes.get i).map (·.group) = (fullLanes.get j).map (·.group) → i = j := by decide
  refine ⟨fun i l hl => ?_, fun i j l m hl hm h' => hg i j (by rw [hl, hm]; simp [h'])⟩
  obtain ⟨l', h1, h2⟩ := h i
  rw [hl] at h1
  obtain rfl := Option.some.inj h1
  exact h2

theorem witness_SetGroupsReaccountsTheLanes :
    (Named (scene inTransit none .free) (.compact 5) 5 inTransit ∧ inTransit.posted = none ∧ inTransit.context ≠ none) ∧
    (Named (scene pack none .free) (.compact 5) 5 pack ∧ pack.posted = none ∧ pack.context = none ∧
      ¬ Unsettled (scene pack none .free) 5 ∧ pack.state = .unattached) ∧
    (Named (lanesScene fullLanes) (.compact 5) 5 served ∧ served.posted = none ∧ served.context = none ∧
      ¬ Unsettled (lanesScene fullLanes) 5 ∧ served.state = .served ∧ served.serving = some (2, 1) ∧
      LanesApart ((lanesScene fullLanes).ant 2).lanes ∧ served.groupA ≠ served.groupB) ∧
    (some (63 : Group) ≠ some 0 ∧ some (62 : Group) ≠ some 0 ∧ some (63 : Group) ≠ some 62) ∧
    reply (exec (.setGroups (.compact 5) 63 62) (lanesScene fullLanes)) = some (refusalFrame 0x23 .noLane) ∧
    ((after (exec (.setGroups (.compact 5) 63 0) (lanesScene fullLanes))).ant 2).lanes =
      #v[some ⟨63, 1⟩, some ⟨8, 2⟩, some ⟨9, 1⟩, some ⟨10, 1⟩] :=
  ⟨⟨scene_named _ _ _, by decide, by decide⟩, ⟨scene_named _ _ _, by decide, by decide, by decide, by decide⟩,
    ⟨scene_named served none (.occupied 5), by decide, by decide, by decide, by decide, by decide, fullLanes_apart, by decide⟩,
    by decide, by decide, by decide⟩

theorem witness_ClassPinAndAdmissionAreSet :
    Named occupiedScene (.compact 5) 5 served ∧ served.posted = none ∧ occupiedScene.link.execution = none ∧
    ((after (exec (.setClass (.compact 5) 3) occupiedScene)).entry 5).map (·.cls) = some 3 ∧
    ((after (exec (.setAdmission (.compact 5) 1) (scene posted none .free))).entry 5).map (·.admission) =
      some .barred := ⟨scene_named _ _ _, by decide, by decide, by decide, by decide⟩

theorem witness_DirectHandoffRaisesADirectedRequest :
    Named occupiedScene (.compact 5) 5 served ∧ served.posted = none ∧ served.context = none ∧
    ({ pack with admission := .barred } : Entry).state = .unattached ∧
    (occupiedScene.ant 23).open = false ∧ (occupiedScene.ant 3).open = true ∧ ¬ QueueFullFor occupiedScene 5 ∧
    QueueFullFor { occupiedScene with queue := List.replicate 16 (ask 6 .fade none) } 5 ∧
    ((after (exec (.directHandoff (.compact 5) 3) occupiedScene)).ctx 0).map (·.target) = some (some 3) :=
  ⟨scene_named _ _ _, by decide, by decide, by decide, by decide, by decide, by decide, by decide, by decide⟩

theorem witness_CancelEndsAReserve :
    Named { occupiedScene with queue := [ask 5 .fade none] } (.compact 5) 5 served ∧ served.posted = none ∧
    HasRequest { occupiedScene with queue := [ask 5 .fade none] } 5 ∧ ¬ HasRequest occupiedScene 5 ∧
    served.context = none ∧
    (Named (scene inTransit (some (run .move .reserve)) (.occupied 5)) (.compact 5) 5 inTransit ∧
      inTransit.context = some 0 ∧ (run .move .reserve).phase = .reserve ∧ (run .move .cue).phase ≠ .reserve ∧
      (scene inTransit (some (run .move .reserve)) (.occupied 5)).ctx 0 = some (run .move .reserve)) ∧
    ((after (exec (.cancelRequest (.compact 5)) (scene inTransit (some (run .move .reserve)) (.occupied 5)))).entry
      5).map (·.state) = some .served :=
  ⟨scene_named served none (.occupied 5), by decide, by decide, by decide, by decide,
    ⟨scene_named _ _ _, by decide, by decide, by decide, by decide⟩, by decide⟩

theorem witness_DetachTakesOffAirAndBars :
    Named occupiedScene (.compact 5) 5 served ∧ served.posted = none ∧ served.context = none ∧
    served.state = .served ∧ served.serving = some (2, 1) ∧
    (Named (scene posted none .free) (.compact 5) 5 posted ∧ posted.posted ≠ none) ∧ inTransit.context ≠ none ∧
    pack.state = .unattached ∧ ({ pack with state := .lost } : Entry).state = .lost ∧
    ((after (exec (.detachBeltpack (.compact 5)) occupiedScene)).slot 2 1,
     ((after (exec (.detachBeltpack (.compact 5)) occupiedScene)).entry 5).map (·.state),
     ((after (exec (.detachBeltpack (.compact 5)) occupiedScene)).entry 5).map (·.admission)) =
      (.releasing 5, some .unattached, some .barred) :=
  ⟨scene_named _ _ _, by decide, by decide, by decide, by decide, ⟨scene_named _ _ _, by decide⟩, by decide, by decide,
    by decide, by decide⟩

theorem witness_ResolveFaultSettlesThePosting :
    (Named occupiedScene (.compact 5) 5 served ∧ served.posted = none) ∧
    (Named (scene posted none .free) (.compact 5) 5 posted ∧
      posted.posted = some ⟨.noArrival, 0x08, some 3, .survey⟩ ∧ posted.context = none ∧
      ¬ QueueFullFor (scene posted none .free) 5) ∧
    ({ posted with context := some 0 } : Entry).context ≠ none ∧
    QueueFullFor { scene posted none .free with queue := List.replicate 16 (ask 6 .fade none) } 5 ∧
    ((after (exec (.resolveFaultRetry (.compact 5)) (scene posted none (.occupied 5)))).ctx 0).map (·.target) =
      some (some 3) :=
  ⟨⟨scene_named _ _ _, by decide⟩, ⟨scene_named _ _ _, by decide, by decide, by decide⟩, by decide, by decide, by decide⟩

theorem witness_QueueAndContextReadsAnswer : occupiedScene.link.execution = none ∧
    reply (exec .readQueue { occupiedScene with queue := [ask 5 .fade none] }) =
      some (answerFrame 0x30 [1, 0, 5, 5, 2, 0, 0, 0, 0, 0]) ∧
    reply (exec .readTransactions (scene inTransit (some (run .move .reserve)) (.occupied 5))) =
      some (answerFrame 0x31 ([1, 0x0F, 5, 6, 2, 0, 0, 0, 0, 0, 0, 0, 0, 0, 0, 2, 1, 3, 0] ++ List.replicate 7 0)) := by
  decide

/-! ### Witnesses: frames, replies and exchanges at a port -/

/-- Slot 2/1 in use, with port 2 as given. -/
def portScene (p : Port) : State := { occupiedScene with ports := (Vector.replicate 24 ({} : Port)).set (2 : AntennaNo) p }

/-- Antenna 2 in a loopback mode. -/
def looped (s : State) (m : LoopbackMode) : State :=
  { s with antennas := s.antennas.set (2 : AntennaNo) { s.ant 2 with loopback := m } }

/-- A Reserve posted by context 0, and the Release of slot 1. -/
def reserveOrder : Order := ⟨.reserve (some 7) none, 0x2E11B4, 0, .context 0⟩
def releaseOrder : Order := ⟨.release, 0x2E11B4, 1, .slot 1⟩

/-- A port with an exchange in flight. -/
def flying (x : Sent) (r : Option PortReply) : Port := { inFlight := some ⟨x, 20, r⟩ }

theorem witness_TrunkBytesSpellTheFrame :
    (occupiedScene.port 2).receiver = .hunting ∧ (occupiedScene.ant 2).loopback = .off ∧
    lineFrame (.status 2 1 0) = some (2, 0x41, [1, 0]) ∧ (List.replicate 16 (0 : Byte)).length ≤ 16 ∧
    crc ([0x41, byte 2] ++ [1, 0] ++ [0, 0]) ≠ 0 ∧ [(1 : Byte), 0].length ∉ lineLengths 0x40 ∧ 16 < (17 : Byte).toNat ∧
    (0xD2 : Byte) ≠ 0xD3 ∧ ((looped occupiedScene .silent).ant 2).loopback ≠ .off ∧
    (((after (execAll ((trunkFrame 0x41 [2, 0]).map (Instr.trunkRxByte 2)) (portScene (flying .probe none)))).ant 2).link) =
      .listenOnly := by decide

theorem witness_BadTrunkFrameSetsTheFlag :
    ((looped occupiedScene .silent).ant 2).loopback ≠ .off ∧ (occupiedScene.ant 2).loopback = .off ∧
    (occupiedScene.port 2).receiver = .hunting ∧ ((portScene { receiver := .inFrame [0x41] }).port 2).receiver = .inFrame [0x41] ∧
    (after (exec (.trunkGapExpiry 2) (portScene { receiver := .inFrame [] }))).link.flags.trunkErrors = true := by decide

theorem witness_ExchangesEndByReplyOrTimeout :
    (occupiedScene.ant 2).loopback = .off ∧ ((looped occupiedScene .ackAll).ant 2).loopback ≠ .off ∧
    ((portScene (flying .probe (some (.status 1 0)))).port 2).inFlight = some ⟨.probe, 20, some (.status 1 0)⟩ ∧
    (((portScene (flying .probe none)).port 2).inFlight.bind (·.prepared)) = none ∧
    ((after (exec (.ack 2 0x02 0x2E11B4 0) (portScene (flying (.order reserveOrder) none)))).port 2).inFlight = none ∧
    (after (exec (.ack 2 0x03 0x2E11B4 0) (portScene (flying (.order reserveOrder) none)))).link.flags.stray = true ∧
    (occupiedScene.ant 2).carrying = true ∧
    (let t := after (exec (.status 2 2 0) (portScene (flying .probe none)))
     ((t.entry 5).map (·.state), t.slot 2 1, (t.ant 2).link) = (some .lost, .free, .listenOnly)) := by decide

theorem witness_PortsBeginTheirExchanges :
    State.reset.running = false ∧ ((portScene (flying .probe none)).port 2).inFlight ≠ none ∧
    (let p : Port := { probeDue := true }
     (portScene p).running = true ∧ p.inFlight = none ∧ p.probeDue = true) ∧
    (let p : Port := { fifo := List.replicate 6 releaseOrder, waiting := [reserveOrder] }
     p.fifo = releaseOrder :: List.replicate 5 releaseOrder ∧ p.fifo.length ≤ 6 ∧ p.probeDue = false ∧ 6 ≤ p.fifo.length ∧
      ((after (exec (.beginExchange 2) (portScene p))).port 2).fifo = List.replicate 5 releaseOrder ++ [reserveOrder]) ∧
    (let p : Port := { fifo := List.replicate 5 releaseOrder, waiting := [reserveOrder], probeTimer := some 50 }
     p.waiting = reserveOrder :: [] ∧ p.fifo.length < 6 ∧ p.probeTimer ≠ none) ∧
    (occupiedScene.port 2).probeTimer = none ∧ (occupiedScene.port 2).waiting = [] := by decide

/-- A state in which the reservation of context 0 at slot 2/0 waits for its Reserve. -/
def reserveScene : State :=
  let s := scene { pack with state := .lost, context := some 0 }
    (some { run .summon .reserve with target := some 2, targetSlot := some 1, awaited := some ⟨.reserve, 2⟩ }) (.reserved 5)
  { s with ports := (Vector.replicate 24 ({} : Port)).set (2 : AntennaNo) (flying (.order reserveOrder) none) }

/-- The same with one order miss counted. -/
def missedScene : State :=
  { reserveScene with antennas := reserveScene.antennas.set (2 : AntennaNo) { reserveScene.ant 2 with orderMisses := 1 } }

theorem witness_ExchangesEndByReplyOrTimeout_timeouts :
    ((portScene (flying .probe none)).port 2).inFlight = some ⟨.probe, 20, none⟩ ∧
    (∀ x, (occupiedScene.port 2).inFlight = some x → x.sent ≠ .probe ∨ x.prepared ≠ none) ∧
    (reserveScene.port 2).inFlight = some ⟨.order reserveOrder, 20, none⟩ ∧ reserveOrder.poster = .context 0 ∧
    releaseOrder.poster = .slot 1 ∧ ({ reserveOrder with poster := .nobody } : Order).poster = .nobody ∧
    ((portScene (flying (.order releaseOrder) none)).port 2).inFlight = some ⟨.order releaseOrder, 20, none⟩ ∧
    (missedScene.ant 2).carrying = true ∧ ((after (exec (.orderTimeout 2) missedScene)).ant 2).fault = true ∧
    ((after (exec (.orderTimeout 2) missedScene)).entry 5).map (·.accrued) = some 0x86 ∧
    ((after (exec (.orderTimeout 2) reserveScene)).ant 2).orderMisses = 1 ∧
    (∀ x o, ((portScene (flying (.order releaseOrder) (some (.status 1 0)))).port 2).inFlight = some x →
      x.sent = .order o → x.prepared ≠ none) := by
  refine ⟨rfl, ?_, rfl, rfl, rfl, rfl, rfl, by decide, by decide, by decide, by decide, ?_⟩
  · intro x h
    have : (occupiedScene.port 2).inFlight = none := by decide
    rw [this] at h; cases h
  · intro x o h _
    have : ((portScene (flying (.order releaseOrder) (some (.status 1 0)))).port 2).inFlight =
        some ⟨.order releaseOrder, 20, some (.status 1 0)⟩ := by decide
    rw [this] at h
    obtain rfl := Option.some.inj h
    decide

/-- A Move in a phase, with its beltpack at the source. -/
def moveScene (p : Phase) : State := scene inTransit (some (run .move p)) (.occupied 5)

theorem witness_OutcomesGoToThePoster :
    (moveScene .reserve).ctx 0 = some (run .move .reserve) ∧ (run .move .reserve).phase = .reserve ∧
    (run .move .reserve).kind = .move ∧ (run .move .reserve).source = some (2, 1) ∧
    (run .move .reserve).target = some 3 ∧ (run .move .reserve).targetSlot = some 0 ∧
    (moveScene .reserve).entry (run .move .reserve).entry = some inTransit ∧
    (reserveScene.ctx 0).map (·.kind) = some .summon ∧ (run .summon .summon).phase = .summon ∧
    (run .move .arrival).phase = .arrival ∧
    (let s := scene { served with context := some 0 } (some (run .move .release)) (.releasing 5)
     s.slot 2 1 = .releasing 5 ∧ s.entry 5 = some { served with context := some 0 } ∧
      s.ctx 0 = some (run .move .release) ∧ (run .move .release).phase = .release ∧
      (run .move .release).source = some (2, 1) ∧
      ((s.giveOutcome 2 releaseOrder .timedOut).slot 2 1, (s.giveOutcome 2 releaseOrder .timedOut).ctx 0) = (.free, none)) ∧
    ((moveScene .reserve).giveOutcome 3 reserveOrder .acked).ctx 0 =
      some { run .move .cue with awaited := some ⟨.cue, 2⟩ } := by decide

/-! ### Witnesses: reports and the Survey Unit -/

theorem witness_ReportsAreDelivered :
    lineReport (.seek 2 0x2E11B4 9) = some (2, .seek 0x2E11B4 9) ∧ (occupiedScene.ant 2).loopback = .off ∧
    (occupiedScene.ant 2).link ≠ .absent ∧ (State.reset.ant 2).loopback = .off ∧ (State.reset.ant 2).link = .absent ∧
    injected (.injectSignOff 2 [1, 2, 3]) = some (byte 2, some (.signOff 0x010203)) ∧
    injected (.injectSignOff 2 [1, 2]) = some (byte 2, none) ∧
    (looped occupiedScene .silent).link.execution = none ∧ ((looped occupiedScene .silent).ant 2).loopback ≠ .off ∧
    ((looped occupiedScene .silent).ant 2).link ≠ .absent ∧ (looped State.reset .silent).link.execution = none ∧
    ((looped State.reset .silent).ant 2).link = .absent ∧
    reply (exec (.injectSignOff 2 [0x2E, 0x11, 0xB4]) (looped occupiedScene .silent)) = some (answerFrame 0x16 [1]) := by
  decide

/-- A full candidate list, with two equal scores. -/
def four : List Candidate := [⟨9, 150, 1500⟩, ⟨3, 90, 1500⟩, ⟨4, 90, 1500⟩, ⟨7, 20, 1500⟩]

theorem witness_ScoresAndCandidatesFollowTheSamples :
    ListKept four ∧ ListKept [] ∧ (⟨3, 90, 1500⟩ : Candidate) ∈ four ∧ (∀ x ∈ four, x.antenna ≠ 0) ∧ four.length = 4 ∧
    four.getLast? = some ⟨7, 20, 1500⟩ ∧ (20 : Byte) ≤ 20 ∧ (20 : Byte) < 21 ∧
    (smooth 0 90 100, smooth 1 90 100, smooth 7 90 100, smooth 7 100 90, smooth 7 90 90, smooth 8 90 100) =
      (100, 95, 91, 99, 90, 90) := by
  refine ⟨⟨by decide, by decide, by decide⟩, ⟨by decide, by decide, by decide⟩, by decide, by decide, by decide, by decide,
    by decide, by decide, by decide⟩

theorem witness_SightingsAreDigested :
    (∀ sl : SlotNo, (8 : Byte) = byte sl → occupiedScene.slot 2 sl = .free) ∧ UnknownId occupiedScene 1 ∧
    Sights occupiedScene 2 (.compact 1 100) 100 5 served ∧ (∃ sl, served.serving = some (2, sl)) ∧
    Sights occupiedScene 3 (.extended 0x2E11B4 100) 100 5 served ∧ (¬ ∃ sl, served.serving = some (3, sl)) ∧
    Sights (scene pack none .free) 3 (.extended 0x2E11B4 100) 100 5 pack ∧ pack.state = .unattached ∧
    inTransit.state = .moving ∧ ({ pack with state := .lost } : Entry).state = .lost ∧
    ((after (exec (.sighting 2 (.compact 1 100)) occupiedScene)).entry 5).map (·.survey.servingScore) =
      some (some 92) :=
  ⟨by decide, scene_unknown _ _ _ (by decide),
    ⟨scene_entry _ _ _, rfl, 1, rfl, .inr (.inl (by decide))⟩, ⟨1, rfl⟩,
    ⟨scene_entry _ _ _, rfl, (scene_hasId served none (.occupied 5)).2⟩, by decide,
    ⟨scene_entry _ _ _, rfl, (scene_hasId pack none .free).2⟩, by decide, by decide, by decide, by decide⟩

/-- The beltpack hears antenna 3 at 150 and leads there. -/
def hearing (score : Byte) : Entry :=
  { served with survey := { servingScore := some score, candidates := [⟨3, 150, 1500⟩], lead := some 3, leadCount := 3 } }

theorem witness_SightingsRaiseTheirRequests :
    (scene (hearing 30) none (.occupied 5)).entry 5 = some (hearing 30) ∧
    (hearing 30).survey.candidates = [] ++ ⟨3, 150, 1500⟩ :: [] ∧
    (let s := scene (hearing 30) none (.occupied 5)
     (s.ant 3).open = true ∧ (s.policy.get 4).toNat ≤ (150 : Byte).toNat ∧ (0 : AntennaSet).getLsbD 3 = false ∧
      (30 : Byte).toNat < (s.policy.get 3).toNat ∧ s.bestTarget 5 0 = some 3 ∧ ¬ HasRequest s 5 ∧
      (s.evaluate 5).queue.map (·.cause) = [.survey]) ∧
    (let s := scene (hearing 140) none (.occupied 5)
     ¬ (150 : Byte).toNat < min 255 ((138 : Byte).toNat + (s.policy.get 0).toNat) ∧
      (150 : Byte).toNat < min 255 ((140 : Byte).toNat + (s.policy.get 0).toNat) ∧ s.bestTarget 5 0 ≠ none ∧
      (∃ c score, s.bestCandidate 5 0 = some c ∧ (hearing 140).survey.servingScore = some score) ∧
      (s.evaluate 5).queue = []) ∧
    (∀ c ∈ served.survey.candidates, c.antenna = 3) ∧
    (let s := { scene (hearing 30) none (.occupied 5) with
                antennas := ((Vector.replicate 24 ({} : Antenna)).set (2 : AntennaNo) { unit with admin := .draining }).set
                  (3 : AntennaNo) unit }
     (s.ant 2).admin = .draining ∧ (s.considerDrain 5).queue.map (·.exclusion) = [0x000004]) := by
  refine ⟨scene_entry _ _ _, by decide, by decide, ⟨by decide, by decide, by decide, ?_, by decide⟩, by decide, by decide⟩
  exact ⟨⟨3, 150, 1500⟩, 140, by decide, by decide⟩

theorem witness_SeeksAreAnswered :
    UnknownId occupiedScene 1 ∧ (1 : BeltpackId) ∉ occupiedScene.strangers ∧
    UnknownId { occupiedScene with strangers := [1] } 1 ∧
    HasId occupiedScene 0x2E11B4 5 served ∧ served.admission = .admitted ∧ served.context = none ∧
    served.state = .served ∧ served.serving = some (2, 1) ∧
    HasId (scene pack none .free) 0x2E11B4 5 pack ∧ pack.state = .unattached ∧
    (HasId (moveScene .arrival) 0x2E11B4 5 inTransit ∧ inTransit.context = some 0 ∧
      (moveScene .arrival).ctx 0 = some (run .move .arrival) ∧ (run .move .arrival).target = some 3 ∧
      (run .move .arrival).phase = .arrival ∧ (run .move .arrival).restartUsed = false) ∧
    ({ pack with admission := .barred } : Entry).admission = .barred ∧
    (after (exec (.seek 3 1 9) occupiedScene)).strangers = [1] ∧
    ((after (exec (.seek 3 0x2E11B4 200) occupiedScene)).ctx 0).map (·.cause) = some .evacuation ∧
    (((after (exec (.seek 3 0x2E11B4 200) (moveScene .arrival))).port 3).inFlight.map (·.sent)) =
      some (.order ⟨.summon, 0x2E11B4, 0, .context 0⟩) :=
  ⟨scene_unknown _ _ _ (by decide), by decide, scene_unknown served none (.occupied 5) (by decide), scene_hasId _ _ _,
    by decide, by decide, by decide, by decide, scene_hasId _ _ _, by decide,
    ⟨scene_hasId _ _ _, by decide, by decide, by decide, by decide, by decide⟩, by decide, by decide, by decide, by decide⟩

theorem witness_ArrivalsServeTheBeltpack :
    UnknownId occupiedScene 1 ∧ 8 ≤ (8 : Byte).toNat ∧ (HasId occupiedScene 0x2E11B4 5 served ∧ served.context = none) ∧
    (HasId (moveScene .arrival) 0x2E11B4 5 inTransit ∧ inTransit.context = some 0 ∧
      (moveScene .arrival).ctx 0 = some (run .move .arrival) ∧ (0 : Byte) = byte (0 : SlotNo) ∧
      (run .move .arrival).target = some 3 ∧ (run .move .arrival).targetSlot = some 0 ∧
      (run .move .arrival).phase = .arrival ∧ (run .move .arrival).kind = .move ∧
      (run .move .arrival).source = some (2, 1) ∧ (moveScene .arrival).entry (run .move .arrival).entry = some inTransit) ∧
    (run .summon .summon).kind ≠ .move ∧ (run .summon .summon).source = none ∧
    ((after (exec (.arrival 3 0x2E11B4 0) (moveScene .arrival))).slot 2 1,
     (after (exec (.arrival 3 0x2E11B4 0) (moveScene .arrival))).slot 3 0) = (.releasing 5, .occupied 5) ∧
    ((after (exec (.arrival 2 0x2E11B4 1) (moveScene .arrival))).entry 5).map (·.current) = some 0x88 :=
  ⟨scene_unknown _ _ _ (by decide), by decide, ⟨scene_hasId _ _ _, by decide⟩,
    ⟨scene_hasId _ _ _, by decide, by decide, by decide, by decide, by decide, by decide, by decide, by decide,
      scene_entry _ _ _⟩, by decide, by decide, by decide, by decide⟩

theorem witness_CompletionFreesTheContext :
    (moveScene .release).ctx 0 = some (run .move .release) ∧ (moveScene .release).entry 5 = some inTransit ∧
    inTransit.survey.former = none ∧
    (let v : Survey := { former := some (2, 90), candidates := [⟨3, 80, 1500⟩] }
     v.former = some (2, 90) ∧ (∀ k ∈ v.candidates, k.antenna ≠ 2) ∧
      (v.completeMove 1500).candidates = [⟨2, 90, 1500⟩, ⟨3, 80, 1500⟩]) ∧
    (let v : Survey := { former := some (3, 90), candidates := [⟨3, 80, 1500⟩] }
     ⟨3, 80, 1500⟩ ∈ v.candidates ∧ v.former = some (3, 90) ∧ (v.completeMove 1500).candidates = [⟨3, 80, 1500⟩]) ∧
    (let x : Entry := { served with context := some 0 }
     x.state = .served ∧ (((scene x (some (run .move .release)) .free).complete 0).entry 5).map (·.settleTimer) =
      some (some 2000)) ∧
    (let x : Entry := { pack with state := .lost, windowExpired := true }
     x.state = .lost ∧ x.windowExpired = true) := by decide

theorem witness_SignOffTakesOffAir :
    UnknownId occupiedScene 1 ∧ HasId occupiedScene 0x2E11B4 5 served ∧ served.state ≠ .unattached ∧
    HasId (scene pack none .free) 0x2E11B4 5 pack ∧ pack.state = .unattached ∧
    (let t := after (exec (.signOff 2 0x2E11B4) (moveScene .reserve))
     (t.ctx 0, t.slot 2 1, (t.entry 5).map (·.state)) = (none, .releasing 5, some .unattached)) :=
  ⟨scene_unknown _ _ _ (by decide), scene_hasId _ _ _, by decide, scene_hasId _ _ _, by decide, by decide⟩

/-! ### Witnesses: timers, the dispatch, and the shared operations -/

/-- The Arrival phase with its timer running. -/
def waiting : Context := { run .move .arrival with arrivalTimer := some 256 }

theorem witness_TimersExpire :
    ((scene inTransit (some waiting) (.occupied 5)).ctx 0 = some waiting ∧ waiting.arrivalTimer ≠ none ∧
      waiting.phase = .arrival) ∧
    (∀ y, occupiedScene.ctx 0 = some y → y.arrivalTimer = none ∨ y.phase ≠ .arrival) ∧
    (let x : Entry := { pack with state := .lost, lostTimer := some 8000 }
     (scene x none .free).entry 5 = some x ∧ x.lostTimer ≠ none ∧ x.context = none ∧
      ((after (exec (.lostWindowExpiry 5) (scene x none .free))).entry 5).map (·.state) = some .unattached) ∧
    (let x : Entry := { pack with state := .lost, lostTimer := some 8000, context := some 0 }
     (scene x none .free).entry 5 = some x ∧ x.lostTimer ≠ none ∧ x.context ≠ none) ∧
    (occupiedScene.entry 5 = some served ∧ served.lostTimer = none) ∧ occupiedScene.entry 95 = none := by
  refine ⟨by decide, fun y h => ?_, by decide, by decide, by decide, by decide⟩
  have : occupiedScene.ctx 0 = none := by decide
  rw [this] at h; cases h

/-- A request that is held before one that may go. -/
def queued : State := { scene (hearing 30) none (.occupied 5) with queue := [ask 9 .attach (some 250), ask 5 .survey none] }

theorem witness_DispatchRunsUntilNoRequestMayGo :
    Rested State.reset ∧ queued.ctx 0 = none ∧ (∀ c < (0 : ContextNo), queued.ctx c ≠ none) ∧
    queued.queue = [ask 9 .attach (some 250)] ++ ask 5 .survey none :: [] ∧
    (∀ h ∈ [ask 9 .attach (some 250)], h.notBefore ≠ none) ∧ (ask 5 .survey none).notBefore = none ∧
    queued.entry (ask 5 .survey none).entry = some (hearing 30) ∧ (hearing 30).state = .served ∧
    ((after (exec .dispatch queued)).ctx 0).map (·.target) = some (some 3) ∧
    (after (exec .dispatch queued)).slot 3 0 = .reserved 5 := by decide

/-- A transaction before its first choice. -/
def choosing (a : Option AntennaNo) : Context :=
  { run .move .reserve with target := none, targetSlot := none, explicit := a }

theorem witness_TargetsAreChosenAndTested :
    (let s := scene { hearing 30 with context := some 0 } (some (choosing (some 3))) (.occupied 5)
     s.ctx 0 = some (choosing (some 3)) ∧ s.entry 5 = some { hearing 30 with context := some 0 } ∧
      (s.ant 3).open = true ∧ s.slot 3 0 = .free ∧ (∀ sl' < (0 : SlotNo), s.slot 3 sl' ≠ .free) ∧
      (s.tryTarget 0 true).2 = 0) ∧
    (let s := scene { served with context := some 0 } (some (choosing (some 23))) (.occupied 5)
     (s.ant 23).open = false ∧ (s.tryTarget 0 true).2 = 0x80) ∧
    (let s := scene { served with context := some 0 } (some (choosing none)) (.occupied 5)
     s.bestTarget 5 0 = none ∧ (s.tryTarget 0 true).2 = 0x80) ∧
    (let s := scene { served with context := some 0 } (some (choosing (some 2))) (.occupied 5)
     s.slot 2 1 = .occupied 5 ∧ (s.tryTarget 0 true).2 = 0x40) ∧
    (let s := lanesScene #v[some ⟨1, 1⟩, some ⟨8, 2⟩, some ⟨9, 1⟩, some ⟨10, 1⟩]
     let s := { s with contexts := s.contexts.set (0 : ContextNo) (some (choosing (some 2))) }
     (s.tryTarget 0 true).2 = 0x60) := by decide

theorem witness_SlotsAndLanesAreAccounted :
    (fullLanes.get 0 = some ⟨7, 1⟩ ∧ (⟨7, 1⟩ : Lane).group = 7 ∧
      ∀ j m, fullLanes.get j = some m → m.group = 7 → j = 0) ∧
    (NoLaneFor #v[some ⟨8, 1⟩, none, none, none] 7 ∧
      (#v[some ⟨8, 1⟩, none, none, none] : Lanes).get 1 = none ∧
      ∀ j < (1 : LaneNo), (#v[some ⟨8, 1⟩, none, none, none] : Lanes).get j ≠ none) ∧
    (occupiedScene.entry 5 = some served ∧ occupiedScene.slot 2 1 = .occupied 5 ∧ occupiedScene.slot 2 0 = .free) ∧
    (scene pack none (.releasing 5)).slot 2 1 = .releasing 5 := by
  refine ⟨⟨by decide, by decide, fun j m hm hg => ?_⟩, ⟨?_, by decide, by decide⟩, by decide, by decide⟩
  · exact fullLanes_apart.2 j 0 m ⟨7, 1⟩ hm (by decide) hg
  · intro i l h
    have : ∀ i : LaneNo, ((#v[some ⟨8, 1⟩, none, none, none] : Lanes).get i).map (·.group) ≠ some 7 := by decide
    intro hg
    exact this i (by rw [h]; simp [hg])

/-- Two requests in key order. -/
def inOrder : State :=
  { occupiedScene with queue := [{ ask 9 .attach none with order := 1 }, ask 8 .survey none], nextOrder := 2 }

/-- Sixteen requests in key order, each of its own beltpack. -/
def sixteen : State :=
  { occupiedScene with
    queue := (List.finRange 16).map fun i => { ask (i.natAdd 80) .fade none with order := i.val }, nextOrder := 16 }

theorem witness_RaisesEnterTheQueueByTheirKey :
    QueueInOrder inOrder ∧ QueueInOrder sixteen ∧ ({ ask 7 .drain none with order := 2 } : Request).order = inOrder.nextOrder ∧
    inOrder.entry 5 = some served ∧ served.context = none ∧ ¬ HasRequest inOrder 5 ∧ inOrder.queue.length < 16 ∧
    ¬ HasRequest sixteen 5 ∧ sixteen.queue.length = 16 ∧
    sixteen.queue.getLast? = some { ask 95 .fade none with order := 15 } ∧
    KeyBefore (ask 5 .drain none) { ask 95 .fade none with order := 15 } ∧
    KeyBefore { ask 95 .fade none with order := 15 } (ask 5 .survey none) ∧
    (let s := { inOrder with queue := [{ ask 5 .survey none with order := 1 }] }
     QueueInOrder s ∧ s.queue.find? (·.entry = 5) = some { ask 5 .survey none with order := 1 } ∧
      (s.raiseRequest 5 ⟨.fade, some 3, 0⟩).queue.map (·.cause) = [.fade]) := by
  refine ⟨⟨?_, ?_, ?_, ?_⟩, ⟨?_, ?_, ?_, ?_⟩, ?_, ?_, ?_, ?_, ?_, ?_, ?_, ?_, ?_, ?_, ⟨?_, ?_, ?_, ?_⟩, ?_, ?_⟩ <;>
    first | decide | (simp only [KeyBefore]; decide) | skip
  all_goals
    unfold KeyBefore
    decide

theorem witness_DisposalFollowsTheTable :
    (let s := moveScene .arrival
     s.ctx 0 = some (run .move .arrival) ∧ s.entry 5 = some inTransit ∧ (0x08 : ConditionSet).getLsbD 3 = true ∧
      (∀ m < 3, (0x08 : ConditionSet).getLsbD m = false) ∧
      ¬ (2 ≤ 3 ∧ (s.policy.get 14).getLsbD 1 = true) ∧ (s.policy.get 11).toNat = 1) ∧
    (let s := { moveScene .arrival with policy := (moveScene .arrival).policy.set (14 : Fin 16) 0x3F }
     (s.policy.get 14).getLsbD 5 = true ∧ ((s.dispose 0 0x80).entry 5).bind (·.posted) ≠ none) ∧
    (let s := { moveScene .arrival with policy := (moveScene .arrival).policy.set (11 : Fin 16) 3 }
     (s.policy.get 11).toNat = 3 ∧ (run .move .arrival).retry + 1 ≤ (s.policy.get 13).toNat + 1 ∧ s.queue.length < 16 ∧
      ((s.dispose 0 0x80).queue.map (·.retry)) = [1]) ∧
    (let s := { moveScene .arrival with policy := (moveScene .arrival).policy.set (11 : Fin 16) 0 }
     (s.policy.get 11).toNat = 0 ∧ (s.dispose 0 0x10).ctx 0 = none) ∧
    (let s := { scene { served with cls := 3 } none (.occupied 5) with
                policy := (moveScene .arrival).policy.set (11 : Fin 16) 2 }
     (s.policy.get 11).toNat = 2 ∧ s.victim 2 2 = some 5 ∧ s.victim 2 3 = none) ∧
    ((moveScene .arrival).dispose 0 0x01).ctx 0 = some { run .summon .arrival with target := some 3 } := by decide

theorem witness_DispositionsActAsNamed :
    (moveScene .reserve).ctx 0 = some (run .move .reserve) ∧ (moveScene .reserve).entry 5 = some inTransit ∧
    (run .move .reserve).awaited = none ∧ inTransit.state = .moving ∧
    (let s := scene { pack with state := .attaching, context := some 0 } (some (run .attach .summon)) .free
     s.ctx 0 = some (run .attach .summon) ∧ (run .attach .summon).kind = .attach ∧ (run .summon .summon).kind ≠ .attach ∧
      ((s.endTransaction 0).entry 5).map (·.state) = some .unattached) ∧
    (let y : Context := { run .summon .reserve with target := some 2, targetSlot := some 1, awaited := some ⟨.reserve, 2⟩ }
     reserveScene.ctx 0 = some y ∧ y.awaited = some ⟨.reserve, 2⟩ ∧ y.target = some 2 ∧ y.targetSlot = some 1 ∧
      reserveScene.slot 2 1 = .reserved 5 ∧ (reserveScene.giveUpAttempt 0).slot 2 1 = .releasing 5) ∧
    (let x : Entry := { pack with state := .lost, windowExpired := true, context := some 0 }
     x.state = .lost ∧ x.windowExpired = true ∧ pack.windowExpired = false) ∧
    ((run .move .cue).phase = .cue ∧ (run .move .cue).target = some 3 ∧ (run .move .cue).targetSlot = some 0 ∧
      (run .move .reserve).phase ≠ .cue) := by decide

theorem witness_SweepTakesEachSlotByItsState :
    (occupiedScene.slot 2 0 = .free ∧ occupiedScene.entry 5 = some served ∧ occupiedScene.slot 2 1 = .occupied 5 ∧
      served.context = none) ∧
    ((moveScene .arrival).slot 2 1 = .occupied 5 ∧ inTransit.context = some 0 ∧
      (moveScene .arrival).ctx 0 = some (run .move .arrival) ∧ (run .move .arrival).phase ≠ .release) ∧
    (reserveScene.slot 2 1 = .reserved 5 ∧ (reserveScene.entry 5).bind (·.context) = some 0) ∧
    (scene pack none (.releasing 5)).slot 2 1 = .releasing 5 ∧ pack.context = none ∧
    ((run .move .release).phase = .release ∧ (run .move .release).source = some (2, 1)) ∧
    ((occupiedScene.closingSweep 2 none).entry 5).map (·.state) = some .lost ∧
    (((moveScene .arrival).closingSweep 2 none).ctx 0).map (·.kind) = some .summon := by decide

theorem witness_EventsKeepWhatTheHostHasSet :
    isEvent (.badTrunkFrame 2) = true ∧ occupiedScene.entry 5 = some served ∧ occupiedScene.entry 6 = none ∧
    ∃ t, exec (.badTrunkFrame 2) occupiedScene = .next t := ⟨rfl, by decide, by decide, _, rfl⟩

/-- The part after reset with one command waiting. -/
def oneCommand : State := { State.reset with pending := [.identify] }

theorem witness_EveryStepKeepsTheStoresInOrder : InOrder oneCommand ∧ ∃ t, step oneCommand = .next t := by
  have he : ∀ e : EntryNo, oneCommand.entry e = none := by decide
  have hl : ∀ a : AntennaNo, ∀ i : LaneNo, (oneCommand.ant a).lanes.get i = none := by decide
  refine ⟨⟨⟨by decide, by decide, by decide, by decide, ?_⟩, ?_, ?_, ?_, by decide, ⟨by decide, ?_, ?_, ?_⟩, ?_, ?_, ?_⟩, _, rfl⟩
  · intro x h; cases h
  · have : ∀ i : Fin 16, (policyRanges[i.val]?.any fun r =>
        r.1 ≤ (oneCommand.policy.get i).toNat && (oneCommand.policy.get i).toNat ≤ r.2) = true := by decide
    intro i lo hi h
    have := this i
    rw [h] at this
    simpa using this
  · intro e x h; rw [he e] at h; cases h
  · intro e e' x y h; rw [he e] at h; cases h
  · exact List.Pairwise.nil
  · exact List.Pairwise.nil
  · intro r h; cases h
  · intro a
    have : ∀ a : AntennaNo, (oneCommand.ant a).probeMisses ≤ 3 ∧ (oneCommand.ant a).orderMisses ≤ 2 := by decide
    refine ⟨(this a).1, (this a).2, ?_, ?_⟩
    · intro i l h; rw [hl a i] at h; cases h
    · intro i j l m h; rw [hl a i] at h; cases h
  · intro a
    have : ∀ a : AntennaNo, (oneCommand.port a).fifo.length ≤ 6 ∧ (oneCommand.port a).waiting = [] := by decide
    exact ⟨(this a).1, fun h => absurd (this a).2 h⟩
  · intro _
    have : ∀ a : AntennaNo, (oneCommand.ant a).link = .absent ∧ (oneCommand.port a).inFlight = none ∧
      (oneCommand.port a).probeDue = false ∧ (oneCommand.port a).probeTimer = none := by decide
    exact this

/-- A Move waits for the Arrival that comes next: its source is slot 2/1, its target slot 3/0. -/
def agreeing : State :=
  { scene inTransit (some waiting) (.occupied 5) with
    antennas := ((Vector.replicate 24 ({} : Antenna)).set (2 : AntennaNo)
      { unit with slots := (Vector.replicate 8 .free).set (1 : SlotNo) (.occupied 5),
                  lanes := #v[some ⟨7, 1⟩, none, none, none] }).set (3 : AntennaNo)
      { unit with slots := (Vector.replicate 8 .free).set (0 : SlotNo) (.reserved 5),
                  lanes := #v[some ⟨7, 1⟩, none, none, none] },
    pending := [.arrival 3 0x2E11B4 0] }

theorem agreeing_entry (e : EntryNo) : agreeing.entry e = if e = 5 then some inTransit else none := by
  revert e; decide

theorem agreeing_ctx (c : ContextNo) : agreeing.ctx c = if c = 0 then some waiting else none := by
  revert c; decide

theorem agreeing_slot (a : AntennaNo) (sl : SlotNo) : agreeing.slot a sl =
    if a = 2 ∧ sl = 1 then .occupied 5 else if a = 3 ∧ sl = 0 then .reserved 5 else .free := by
  revert a sl; decide

theorem agreeing_lanes (a : AntennaNo) (i : LaneNo) : (agreeing.ant a).lanes.get i =
    if (a = 2 ∨ a = 3) ∧ i = 0 then some ⟨7, 1⟩ else none := by
  revert a i; decide

theorem agreeing_inOrder : InOrder agreeing := by
  refine ⟨⟨by decide, by decide, by decide, by decide, fun x h => nomatch h⟩, ?_, ?_, ?_, by decide,
    ⟨by decide, .nil, .nil, fun r h => nomatch h⟩, ?_, ?_, fun h => nomatch h⟩
  · have : ∀ i : Fin 16, (policyRanges[i.val]?.any fun r =>
        r.1 ≤ (agreeing.policy.get i).toNat && (agreeing.policy.get i).toNat ≤ r.2) = true := by decide
    intro i lo hi h
    have := this i
    rw [h] at this
    simpa using this
  · intro e x h
    rw [agreeing_entry] at h
    split at h
    · obtain rfl := Option.some.inj h
      exact ⟨by decide, by decide, by decide, ⟨by decide, .nil, .nil⟩, by decide⟩
    · cases h
  · intro e e' x y h h' _
    rw [agreeing_entry] at h h'
    split at h
    · split at h'
      · simp_all
      · cases h'
    · cases h
  · intro a
    have : ∀ a : AntennaNo, (agreeing.ant a).probeMisses ≤ 3 ∧ (agreeing.ant a).orderMisses ≤ 2 := by decide
    refine ⟨(this a).1, (this a).2, ?_, ?_⟩
    · intro i l h
      rw [agreeing_lanes] at h
      split at h
      · obtain rfl := Option.some.inj h; decide
      · cases h
    · intro i j l m h h' _
      rw [agreeing_lanes] at h h'
      split at h
      · split at h'
        · simp_all
        · cases h'
      · cases h
  · intro a
    have : ∀ a : AntennaNo, (agreeing.port a).fifo.length ≤ 6 ∧ (agreeing.port a).waiting = [] := by decide
    exact ⟨(this a).1, fun h => absurd (this a).2 h⟩

theorem agreeing_slots : SlotsAgree agreeing := by
  have held : ∀ a sl e, Holds agreeing a sl e → e = 5 ∧ (a = 2 ∧ sl = 1 ∨ a = 3 ∧ sl = 0) := by
    intro a sl e h
    simp only [Holds, agreeing_slot] at h
    split at h
    · simp at h; exact ⟨h.symm, .inl (by assumption)⟩
    · split at h
      · simp at h; exact ⟨h.symm, .inr (by assumption)⟩
      · simp at h
  refine ⟨?_, ?_, ?_, ?_, by decide +kernel⟩
  · intro a sl e h
    obtain ⟨rfl, -⟩ := held a sl e h
    decide
  · intro a sl sl' e h h'
    obtain ⟨-, hs⟩ := held a sl e h
    obtain ⟨-, hs'⟩ := held a sl' e h'
    rcases hs with ⟨rfl, rfl⟩ | ⟨rfl, rfl⟩ <;> rcases hs' with ⟨h1, h2⟩ | ⟨h1, h2⟩ <;> first | exact h2.symm | simp at h1
  · intro a sl e x h
    rw [agreeing_entry] at h
    split at h
    · obtain rfl := Option.some.inj h
      subst e
      revert a sl
      decide
    · cases h
  · intro a sl e h
    obtain ⟨rfl, ⟨rfl, rfl⟩ | ⟨rfl, rfl⟩⟩ := held a sl e (.inl h)
    · rw [agreeing_slot] at h; simp at h
    · exact ⟨0, waiting, by decide, rfl, rfl, rfl, by decide⟩

theorem witness_EveryStepKeepsTransactionsInOrder :
    InOrder agreeing ∧ TransactionsInOrder agreeing ∧
    ∃ t, step agreeing = .next t ∧ (t.slot 2 1, t.slot 3 0, t.ctx 0) =
      (.releasing 5, .occupied 5, some { run .move .release with awaited := some ⟨.release, 2⟩ }) := by
  refine ⟨agreeing_inOrder, ⟨agreeing_slots, ?_, ?_, (fun r h => nomatch h), .nil, ?_⟩, _, rfl, by decide⟩
  · intro c y h
    rw [agreeing_ctx] at h
    split at h
    · obtain rfl := Option.some.inj h
      subst c
      exact ⟨⟨inTransit, by decide, rfl, rfl, by decide, rfl⟩, by decide, (fun h => nomatch h),
        3, 0, rfl, rfl, .inl rfl, fun _ => by decide⟩
    · cases h
  · intro e x h
    rw [agreeing_entry] at h
    split at h
    · obtain rfl := Option.some.inj h
      subst e
      refine ⟨fun c h => ?_, by decide, by decide, by decide, by decide⟩
      obtain rfl := Option.some.inj h
      exact ⟨waiting, by decide, rfl⟩
    · cases h
  · decide

end Sys2Proof.Tests
end

section
/-! The Out of service action (R37): what a command that changes one antenna record does, the cases of the action's body, and the obligation. -/

namespace Sys2Proof.Machine

variable {s t : State} {code : Byte}

/-! ### A command that changes one antenna record (R41) -/

@[simp] theorem Antenna.flagged_admin (r r' : Antenna) : (r.flagged r').admin = r'.admin := by
  unfold Antenna.flagged
  split <;> rfl

theorem State.changeAntenna_admin (s : State) (a : AntennaNo) {f : Antenna → Antenna}
    (hf : (f (s.ant a)).changed = (s.ant a).changed) : ((s.changeAntenna a f).ant a).admin = (f (s.ant a)).admin := by
  rw [s.changeAntenna_eq a hf, State.ant_mk, get_set_self, Antenna.flagged_admin]

/-- A command that changes an antenna record is still at work: its notice is handed over and not begun (R167). -/
theorem AtWork.recordChanged (h : AtWork s t code) (a : AntennaNo) (r' : Antenna) :
    AtWork s (t.recordChanged a r') code := by
  by_cases hquiet : sameService (t.ant a) r' ∨ (t.ant a).changed = true
  · exact h.of_link (if_pos hquiet)
  · have hlatched : AtWork s t.latchAntennaChange code :=
      ⟨⟨h.inCommand.execution, h.inCommand.idle⟩, h.receiver, h.transmitter, h.replies, h.rate⟩
    exact (hlatched.queueNotice _).of_link (if_neg hquiet)

/-- A body that answers and changes one antenna record, leaving the change flag to R41. -/
theorem hostCommand_antennaUpdated {body : State → CommandReply} {p : List Byte} {a : AntennaNo}
    {f : Antenna → Antenna} (h : s.link.execution = none) (hf : (f (s.ant a)).changed = (s.ant a).changed)
    (hb : body (s.atWork code) = .answer p ((s.atWork code).changeAntenna a f)) :
    ∃ t, hostCommand code body s = .next t ∧ AntennaUpdated s t code p a (f (s.ant a)) [] := by
  rw [(s.atWork code).changeAntenna_eq a hf] at hb
  obtain ⟨t, ht, hdone, hrest⟩ := hostCommand_done h hb ((State.atWork_atWork h).recordChanged a (f (s.ant a)))
  exact ⟨t, ht, hdone, hrest⟩

/-! ### The body of the Out of service action (R37) -/

theorem exec_outOfServiceAction (b : Byte) (s : State) :
    exec (.outOfServiceAction b) s = hostCommand 0x13 (outOfServiceBody b) s := rfl

theorem State.allFree_iff (s : State) (a : AntennaNo) : (s.ant a).allFree = true ↔ AllFree s a :=
  Antenna.allFree_iff

theorem serviceAnswer_outOfService {a : AntennaNo} (ho : (s.ant a).admin = .outOfService) :
    serviceAnswer a s = .answer [2] s := by
  rw [serviceAnswer, ho]; rfl

theorem outOfServiceBody_already {a : AntennaNo} (ho : (s.ant a).admin = .outOfService) :
    outOfServiceBody (byte a) s = .answer [2] s := by
  rw [outOfServiceBody, withAntenna_byte, if_pos ho, serviceAnswer_outOfService ho]

theorem outOfServiceBody_allFree {a : AntennaNo} (ho : (s.ant a).admin ≠ .outOfService) (hfree : AllFree s a) :
    outOfServiceBody (byte a) s = .answer [2] (s.changeAntenna a fun r => { r with admin := .outOfService }) := by
  rw [outOfServiceBody, withAntenna_byte, if_neg ho, if_pos ((s.allFree_iff a).mpr hfree)]
  exact serviceAnswer_outOfService (s.changeAntenna_admin a rfl)

theorem outOfServiceBody_held {a : AntennaNo} (ho : (s.ant a).admin ≠ .outOfService) (hheld : ¬ AllFree s a) :
    outOfServiceBody (byte a) s = .refuse .state := by
  rw [outOfServiceBody, withAntenna_byte, if_neg ho, if_neg (mt (s.allFree_iff a).mp hheld)]

/-! ### The obligation -/

/-- Settles O18, by the three cases of R37: already Out of service, every slot Free, and a slot that is not Free. -/
theorem outOfServiceActionNeedsFreeSlots : Obligations.OutOfServiceActionNeedsFreeSlots := by
  intro s a h
  rw [exec_outOfServiceAction]
  by_cases ho : (s.ant a).admin = .outOfService
  · obtain ⟨t, ht, htold⟩ := hostCommand_told h (outOfServiceBody_already (s := s.atWork 0x13) ho)
    exact ⟨t, ht, fun _ => htold, fun hn => absurd ho hn, fun hn => absurd ho hn⟩
  by_cases hfree : AllFree s a
  · obtain ⟨t, ht, hupdated⟩ :=
      hostCommand_antennaUpdated h rfl (outOfServiceBody_allFree (s := s.atWork 0x13) ho hfree)
    exact ⟨t, ht, fun ho' => absurd ho' ho, fun _ _ => hupdated, fun _ hheld => absurd hfree hheld⟩
  · obtain ⟨t, ht, hrefused⟩ := hostCommand_refused h (outOfServiceBody_held (s := s.atWork 0x13) ho hfree)
    exact ⟨t, ht, fun ho' => absurd ho' ho, fun _ hfree' => absurd hfree' hfree, fun _ _ => hrefused⟩

end Sys2Proof.Machine
end

section
/-! The commands that read what the part holds fixed or as stored: Identify (R177) and Read Policy (R176). Each body answers without a change of state, so its answer is told. -/

namespace Sys2Proof.Machine

/-! ### Identify (R177) -/

theorem exec_identify (s : State) : exec .identify s = hostCommand 0x01 identifyBody s := rfl

theorem identifyBody_eq (s : State) : identifyBody s = .answer identity s := rfl

theorem Notice.payload_started : Notice.started.payload = identity := rfl

/-- The fields of R177 as the bytes of 12.5: vendor, family, part number, revision and capacities. -/
theorem identity_bytes : identity = [0x0E, 0x5A, 0x01, 0x01, 0xA0, 0x01, 24, 8, 4, 96, 16, 8, 32, 8] := rfl

/-- Settles O3: the body answers `identity` over an unchanged state, and the Started notice carries the same fields. -/
theorem identifyAnswersTheIdentity : Obligations.IdentifyAnswersTheIdentity := by
  unfold Obligations.IdentifyAnswersTheIdentity
  rw [Notice.payload_started, ← identity_bytes]
  refine ⟨fun s h => ?answered, rfl⟩
  case answered =>
    rw [exec_identify]
    exact hostCommand_told h (identifyBody_eq _)

/-! ### Read Policy (R176) -/

theorem exec_readPolicy (s : State) : exec .readPolicy s = hostCommand 0x09 readPolicyBody s := rfl

@[simp] theorem State.accept_policy (s : State) (code : Byte) : (s.accept code).policy = s.policy := rfl

/-- The fields that Read Policy answers are those stored before it: neither the transmitter's choice nor the acceptance of
the command touches the Policy Table. -/
theorem readPolicyBody_accept (s : State) (code : Byte) :
    readPolicyBody (s.wake.accept code) = .answer s.policy.toList (s.wake.accept code) := by
  rw [readPolicyBody, State.accept_policy, State.wake_policy]

/-- Settles O4: the body answers the stored fields over an unchanged state. -/
theorem readPolicyAnswersTheFields : Obligations.ReadPolicyAnswersTheFields := by
  intro s h
  rw [exec_readPolicy]
  exact hostCommand_told h (readPolicyBody_accept s 0x09)

end Sys2Proof.Machine
end

section
/-! Steps and reset: every command and event has a next state, and RESET gives every block its reset value (R162). -/

namespace Sys2Proof.Machine

/-! ### Every step has a next state -/

theorem exec_next (i : Instr) (s : State) : ∃ t, exec i s = .next t := by
  cases i <;> exact ⟨_, rfl⟩

theorem step_idle {s : State} (h : s.pending = []) : step s = .next s := by
  unfold step; rw [h]

theorem step_front {s : State} {c : Instr} {cs : List Instr} (h : s.pending = c :: cs) :
    step s = exec c { s with pending := cs } := by
  unfold step; rw [h]

theorem safe (s : State) : Safe s := by
  unfold Safe
  cases h : s.pending with
  | nil => exact ⟨s, step_idle h⟩
  | cons c cs => rw [step_front h]; exact exec_next c _

/-- Settles O1: the two cases of the queue, and that no arm of `exec` stops. -/
theorem stepRunsTheFrontCommand : Obligations.StepRunsTheFrontCommand :=
  ⟨fun _ _ _ h => step_front h, fun _ h => step_idle h, safe⟩

/-! ### Reset -/

theorem get_replicate {α : Type} {n : Nat} (x : α) (i : Fin n) : (Vector.replicate n x).get i = x := by
  simp [Vector.get]

theorem reset_antennas_get (a : AntennaNo) : State.reset.antennas.get a = {} := get_replicate _ a

/-- A state whose blocks are those of `State.reset` has the reset values. -/
theorem resetValues_of_reset (pending : List Instr) (index : Nat) :
    ResetValues { State.reset with pending := pending, freeIndex := index } where
  link := rfl
  policy := rfl
  roster _ := get_replicate _ _
  strangers := rfl
  queue := rfl
  contexts _ := get_replicate _ _
  trunk := rfl
  antennas a := by
    simp only [State.ant_mk, reset_antennas_get]; decide
  slots a sl := by
    simp only [State.slot_mk, reset_antennas_get]; exact get_replicate _ sl
  lanes a i := by
    simp only [State.ant_mk, reset_antennas_get]; exact get_replicate _ i
  ports a := get_replicate _ a

/-- Settles O2: RESET makes `State.reset` with the model's own fields kept. -/
theorem resetReturnsEveryBlockToReset : Obligations.ResetReturnsEveryBlockToReset :=
  ⟨resetValues_of_reset [] 0, fun s => ⟨_, rfl, resetValues_of_reset s.pending s.freeIndex, rfl, rfl⟩⟩

end Sys2Proof.Machine
end

section
/-! The commands of the Host Link and the Policy Table: Read Domain Status (R174), Set Link Rate (R169), Set Notice Mode and Fetch Notice (R171 to R173), Set Policy Item (R175). -/

namespace Sys2Proof.Machine

variable {s t : State} {code : Byte}

/-! ### A command's own work on the link -/

/-- A command at work may set anything of the link but the receiver, the rate, the transmitter, the reply list and the
command in execution. -/
theorem AtWork.settings (h : AtWork s t code) (mode : NoticeMode) (sel : BitVec 16) (ns : List Notice) (fl : LatchedFlags)
    (k : ConditionSet) :
    AtWork s { t with link := { t.link with mode := mode, selection := sel, notices := ns, flags := fl,
                                            domainAccrued := k } } code :=
  ⟨⟨h.inCommand.execution, h.inCommand.idle⟩, h.receiver, h.transmitter, h.replies, h.rate⟩

theorem State.atWork_mode (s : State) (code : Byte) : (s.atWork code).link.mode = s.link.mode := HostLink.choose_mode _

theorem State.atWork_selection (s : State) (code : Byte) : (s.atWork code).link.selection = s.link.selection :=
  HostLink.choose_selection _

theorem State.atWork_flags (s : State) (code : Byte) : (s.atWork code).link.flags = s.link.flags := HostLink.choose_flags _

theorem State.atWork_domainAccrued (s : State) (code : Byte) :
    (s.atWork code).link.domainAccrued = s.link.domainAccrued := HostLink.choose_domainAccrued _

/-! ### Read Domain Status (R174) -/

theorem LatchedFlags.bits_spec (f : LatchedFlags) :
    f.bits.getLsbD 0 = f.frameErrors ∧ f.bits.getLsbD 1 = f.trunkErrors ∧ f.bits.getLsbD 2 = f.stray ∧
      f.bits.getLsbD 3 = f.noticesDiscarded ∧ f.bits.getLsbD 4 = f.antennaChangesSeen ∧ f.bits.toNat < 32 := by
  obtain ⟨a, b, c, d, e⟩ := f
  revert a b c d e
  decide

theorem State.domainStatus_eq (s : State) :
    s.domainStatus =
      [if s.running then 1 else 0,
       byte (countOf fun a => decide ((s.ant a).link = .serveCapable ∧ (s.ant a).fault = false ∧
         (s.ant a).admin = .inService)),
       byte (countOf fun e => (s.entry e).isSome), byte s.queue.length, byte (countOf fun c => (s.ctx c).isSome),
       byte s.link.notices.length, s.link.flags.bits, s.link.domainAccrued] := by
  simp only [State.domainStatus, State.openAntennas_eq, Antenna.open_eq, State.rosterCount_eq, State.busyContexts_eq,
    flagByte]

/-- Settles O5: the body answers `domainStatus`, and the work it leaves has the latched fields clear. -/
theorem readDomainStatusReportsAndClears : Obligations.ReadDomainStatusReportsAndClears := by
  intro s h
  obtain ⟨t, ht, hdone, hrest⟩ := hostCommand_done (body := readDomainStatusBody) (code := 0x02) h rfl
    ((State.atWork_atWork h).settings _ _ _ {} 0)
  rw [State.domainStatus_eq, s.atWork_flags, s.atWork_domainAccrued] at hdone
  have hk := hdone.link
  exact ⟨t, s.link.flags.bits, ht, hdone.reply, LatchedFlags.bits_spec _, hk.flags, hk.domainAccrued,
    hk.mode.trans (s.atWork_mode 0x02), hk.selection.trans (s.atWork_selection 0x02), hk.notices, hrest⟩

/-! ### Set Link Rate (R169) -/

theorem setLinkRateBody_bad {b : Byte} (hb : linkRate? b = none) : setLinkRateBody b s = .refuse .badValue := by
  simp [setLinkRateBody, hb]

/-- A reply does not change the new rate of the command in execution. -/
theorem InCommand.reply_newRate (h : InCommand t.link code) (f : HostFrame) :
    (t.reply f).link.execution.bind (·.newRate) = t.link.execution.bind (·.newRate) := by
  obtain ⟨x, hx, -, hl⟩ := h.reply_link f
  rw [hl, hx]; rfl

/-- A rate is taken: the answer carries nothing, and the rate waits unless it is in force. -/
theorem setLinkRate_taken {b : Byte} {r : LinkRate} (h : s.link.execution = none) (hb : linkRate? b = some r) :
    ∃ t, exec (.setLinkRate b) s = .next t ∧ RateTaken s t r := by
  have hrate : (s.atWork 0x03).link.rate = s.link.rate := HostLink.choose_rate _
  have hw := State.atWork_atWork (code := 0x03) h
  refine ⟨_, hostCommand_atWork h, ?_⟩
  simp only [setLinkRateBody, hb]
  by_cases hr : r = s.link.rate
  · rw [if_pos (hr.trans hrate.symm), State.conclude]
    refine ⟨⟨hw.reply _, (State.accept_link_kept _ _).trans (hw.reply_link_kept _), rfl⟩, ?_⟩
    rw [hw.inCommand.reply_newRate, if_pos hr]; rfl
  · rw [if_neg (fun hn => hr (hn.trans hrate)), State.conclude]
    have hw' : AtWork s ((s.atWork 0x03).mapLink fun l =>
        { l with execution := l.execution.map fun x => { x with newRate := some r } }) 0x03 :=
      ⟨⟨⟨some r, _, rfl⟩, hw.inCommand.idle⟩, hw.receiver, hw.transmitter, hw.replies, hw.rate⟩
    refine ⟨⟨hw'.reply _, LinkKept.trans (b := (s.atWork 0x03).link) (State.accept_link_kept _ _) ?_, rfl⟩, ?_⟩
    · obtain ⟨hmode, hsel, hflags, hacc, hnotices⟩ := hw'.reply_link_kept (answerFrame 0x03 [])
      exact ⟨hmode, hsel, hflags, hacc, hnotices⟩
    · rw [hw'.inCommand.reply_newRate, if_neg hr]; rfl

/-- Settles O6, by the five codes and the rest. -/
theorem setLinkRateWaitsForItsAnswer : Obligations.SetLinkRateWaitsForItsAnswer := by
  intro s b h
  have taken {r : LinkRate} := setLinkRate_taken (b := b) (r := r) h
  split
  next hb => exact taken (by simp [linkRate?, hb])
  next hb => exact taken (by simp [linkRate?, hb])
  next hb => exact taken (by simp [linkRate?, hb])
  next hb => exact taken (by simp [linkRate?, hb])
  next hb => exact taken (by simp [linkRate?, hb])
  next h0 h1 h2 h3 h4 =>
    refine hostCommand_refused h (setLinkRateBody_bad ?_)
    unfold linkRate?
    split <;> first | rfl | contradiction

/-! ### Set Notice Mode (R171) -/

theorem selection_mask_bit : ∀ i < 16, (0xF800 : BitVec 16).getLsbD i = decide (11 ≤ i) := by decide

theorem selection_high_iff (sel : BitVec 16) : (sel &&& 0xF800 != 0) = true ↔ ¬ sel.toNat < 2 ^ 11 := by
  rw [bne_iff_ne, ne_eq, not_iff_not]
  constructor
  · intro h
    refine Nat.lt_pow_two_of_testBit _ fun i hi => ?_
    by_cases h16 : i < 16
    · have hbit : (sel &&& 0xF800).getLsbD i = false := by rw [h]; simp
      rw [BitVec.getLsbD_and, selection_mask_bit i h16, decide_eq_true hi, Bool.and_true] at hbit
      exact hbit
    · exact BitVec.getLsbD_of_ge sel i (by omega)
  · intro h
    refine BitVec.eq_of_getLsbD_eq fun i hi => ?_
    rw [BitVec.getLsbD_and, selection_mask_bit i hi]
    by_cases h11 : 11 ≤ i
    · have hbit : sel.getLsbD i = false :=
        Nat.testBit_lt_two_pow (lt_of_lt_of_le h (Nat.pow_le_pow_right (by decide) h11))
      simp [hbit]
    · simp [h11]

theorem heldSelection_mask_bit : ∀ n < 16, (0x0008 : BitVec 16).getLsbD n = (n == 3) := by decide

theorem heldSelection_bit (sel : BitVec 16) (n : Nat) (hn : n < 16) :
    (heldSelection sel).getLsbD n = (n == 3 || sel.getLsbD n) := by
  unfold heldSelection
  rw [BitVec.getLsbD_or, heldSelection_mask_bit n hn, Bool.or_comm]

theorem noticeMode?_le {b : Byte} (hb : b.toNat ≤ 1) : noticeMode? b = some (if b = 0 then .push else .pull) := by
  have hb : b = 0 ∨ b = 1 := by bv_omega
  rcases hb with rfl | rfl <;> rfl

theorem noticeMode?_gt {b : Byte} (hb : ¬ b.toNat ≤ 1) : noticeMode? b = none := by
  unfold noticeMode?
  split <;> first | rfl | omega

theorem State.attnLow_iff (s : State) : s.attnLow = true ↔ s.link.mode = .pull ∧ s.link.notices ≠ [] := by
  simp [State.attnLow]

/-- Settles O7: the mode byte and the selection in range, or either out of range. -/
theorem setNoticeModeSetsModeAndSelection : Obligations.SetNoticeModeSetsModeAndSelection := by
  refine ⟨fun s b sel h => ?_, State.attnLow_iff⟩
  by_cases hin : b.toNat ≤ 1 ∧ sel.toNat < 2 ^ 11
  · obtain ⟨hb, hsel⟩ := hin
    have hbody : setNoticeModeBody b sel (s.atWork 0x04) = .answer [] ((s.atWork 0x04).mapLink fun l =>
        { l with mode := if b = 0 then .push else .pull, selection := heldSelection sel }) := by
      simp only [setNoticeModeBody, noticeMode?_le hb]
      rw [if_neg (by rw [selection_high_iff]; exact fun hn => hn hsel)]
    obtain ⟨t, ht, hdone, hrest⟩ := hostCommand_done h hbody ((State.atWork_atWork h).settings _ _ _ _ _)
    have hk := hdone.link
    refine ⟨t, ht, ?_⟩
    rw [if_pos ⟨hb, hsel⟩]
    refine ⟨hdone.reply, hrest, hk.mode, fun n hn => ?_, ?_, ?_, hk.notices⟩
    · rw [hk.selection]; exact heldSelection_bit sel n hn
    · exact hk.flags.trans (s.atWork_flags 0x04)
    · exact hk.domainAccrued.trans (s.atWork_domainAccrued 0x04)
  · obtain ⟨t, ht, hr⟩ := hostCommand_refused (code := 0x04) (body := setNoticeModeBody b sel) (r := .badValue) h (by
      unfold setNoticeModeBody
      by_cases hb : b.toNat ≤ 1
      · rw [noticeMode?_le hb]
        have hs : ¬ sel.toNat < 2 ^ 11 := fun hs => hin ⟨hb, hs⟩
        simp only [(selection_high_iff sel).mpr hs, if_true]
      · rw [noticeMode?_gt hb])
    refine ⟨t, ht, ?_⟩
    rw [if_neg hin]; exact hr

/-! ### Fetch Notice (R172, R173) -/

/-- In pull mode the transmitter's choice takes no notice. -/
theorem HostLink.choose_notices_pull {l : HostLink} (h : l.mode = .pull) : l.choose.notices = l.notices := by
  unfold HostLink.choose HostLink.beginReply HostLink.beginNotice; grind

theorem State.atWork_notices_pull (h : s.link.mode = .pull) : (s.atWork code).link.notices = s.link.notices :=
  HostLink.choose_notices_pull h

/-- Settles O8, by the mode and, in pull mode, by the Notice Queue. -/
theorem fetchNoticeTakesTheOldest : Obligations.FetchNoticeTakesTheOldest := by
  intro s h
  have hmode := s.atWork_mode 0x05
  cases hm : s.link.mode with
  | push =>
    obtain ⟨t, ht, hr⟩ := hostCommand_refused (body := fetchNoticeBody) (code := 0x05) (r := .state) h (by
      show fetchNoticeBody (s.atWork 0x05) = _
      unfold fetchNoticeBody; rw [hmode, hm])
    exact ⟨t, ht, fun _ => hr, nofun, nofun⟩
  | pull =>
    have hns := State.atWork_notices_pull (code := 0x05) hm
    cases hn : s.link.notices with
    | nil =>
      obtain ⟨t, ht, hr⟩ := hostCommand_told (body := fetchNoticeBody) (code := 0x05) (p := []) h (by
        show fetchNoticeBody (s.atWork 0x05) = .answer [] (s.atWork 0x05)
        unfold fetchNoticeBody; rw [hmode, hm, hns, hn])
      exact ⟨t, ht, nofun, fun _ _ => hr, nofun⟩
    | cons n ns =>
      have hbody : fetchNoticeBody (s.atWork 0x05) = .answer (n.code :: n.payload)
          ((s.atWork 0x05).mapLink fun l => { l with notices := ns }) := by
        unfold fetchNoticeBody; rw [hmode, hm, hns, hn]
      obtain ⟨t, ht, hdone, hrest⟩ := hostCommand_done h hbody ((State.atWork_atWork h).settings _ _ ns _ _)
      have hk := hdone.link
      refine ⟨t, ht, nofun, nofun, fun n' ns' _ hcons => ?_⟩
      obtain ⟨rfl, rfl⟩ := List.cons.inj hcons
      exact ⟨hdone.reply, hk.notices, hk.mode.trans (hmode.trans hm), hk.selection.trans (s.atWork_selection 0x05),
        hk.flags.trans (s.atWork_flags 0x05), hk.domainAccrued.trans (s.atWork_domainAccrued 0x05), hrest⟩

/-! ### Set Policy Item (R175) -/

/-- The ranges of the model are the ranges of 12.4. -/
theorem policyRanges_get (i : Fin 16) : policyRanges[i.val]? = some (fieldRange i) := by
  revert i; decide

/-- The place of an item number from 1 to 16. -/
theorem itemPlace?_some {item : Byte} {i : Nat} (hi : item.toNat = i + 1) (h16 : i < 16) :
    itemPlace? item = some ⟨i, h16⟩ := by
  have hsub : (item - 1).toNat = i := by bv_omega
  unfold itemPlace? number?
  rw [if_neg (by omega), dif_pos (by rw [hsub]; exact h16)]
  simp only [hsub]

theorem itemPlace?_none {item : Byte} (h : item.toNat = 0 ∨ 16 < item.toNat) : itemPlace? item = none := by
  unfold itemPlace?
  split
  · rfl
  · rename_i h0
    exact number?_none (by bv_omega)

theorem setPolicyItemBody_bad {item field : Byte} (h : itemPlace? item = none) :
    setPolicyItemBody item field s = .refuse .badValue := by
  simp [setPolicyItemBody, h]

/-- Settles O9: an item from 1 to 16 with its field in range or not, and any other item. -/
theorem setPolicyItemStoresFieldsInRange : Obligations.SetPolicyItemStoresFieldsInRange := by
  intro s item field h
  by_cases hin : item.toNat = 0 ∨ 16 < item.toNat
  · obtain ⟨t, ht, hr⟩ := hostCommand_refused (code := 0x08) h
      (setPolicyItemBody_bad (field := field) (s := s.atWork 0x08) (itemPlace?_none hin))
    refine ⟨t, ht, ?_⟩
    split
    next lo hi i hrange hnum =>
      have : 16 ≤ item.toNat - 1 := by omega
      rw [List.getElem?_eq_none (by simpa [policyRanges] using this)] at hrange
      cases hrange
    next => exact hr
  · obtain ⟨i, hi⟩ : ∃ i, item.toNat = i + 1 := ⟨item.toNat - 1, by omega⟩
    have h16 : i < 16 := by omega
    have hplace := itemPlace?_some hi h16
    have hrange := policyRanges_get ⟨i, h16⟩
    simp only [hi, Nat.add_sub_cancel]
    simp only at hrange
    rw [hrange]
    simp only
    by_cases hf : (fieldRange ⟨i, h16⟩).1 ≤ field.toNat ∧ field.toNat ≤ (fieldRange ⟨i, h16⟩).2
    · have hbody : setPolicyItemBody item field (s.atWork 0x08) = .answer [item, field]
          { s.atWork 0x08 with policy := s.policy.set i field } := by
        simp [setPolicyItemBody, hplace, hf]
      obtain ⟨t, ht, hdone, hrest⟩ := hostCommand_done h hbody ((State.atWork_atWork h).of_link rfl)
      refine ⟨t, ht, ?_⟩
      rw [if_pos hf]
      refine ⟨hdone.reply, (hdone.woken).link, ?_, ?_⟩
      · rw [hrest]
      · rw [hrest]; exact Vector.toList_set h16
    · obtain ⟨t, ht, hr⟩ := hostCommand_refused (code := 0x08) (body := setPolicyItemBody item field)
        (r := .badValue) h (by simp only [setPolicyItemBody, hplace, if_neg hf])
      refine ⟨t, ht, ?_⟩
      rw [if_neg hf]; exact hr

end Sys2Proof.Machine
end

section
/-! Frames on the Host Link: what an idle transmitter begins and how a transmission ends (R168, R169), and frames that are refused without execution (R164 to R166). -/

namespace Sys2Proof.Machine

variable {s t : State} {l : HostLink} {code : Byte}

/-! ### The choice of an idle transmitter (R168) -/

theorem HostLink.choose_refusal_ahead {x : Execution} {r : HostFrame} {rs : List HostFrame} (ht : l.transmitter = none)
    (hx : l.execution = some x) (ha : 0 < x.ahead) (hr : l.replies = r :: rs) :
    l.choose = { l with transmitter := some r, replies := rs, execution := some { x with ahead := x.ahead - 1 } } := by
  simp [HostLink.choose, ht, hx, hr, ha]

/-- With no refusal ahead of its answer, the command in execution has its turn. -/
theorem HostLink.choose_turn {x : Execution} (ht : l.transmitter = none) (hx : l.execution = some x)
    (ha : x.ahead = 0 ∨ l.replies = []) : l.choose = l.beginReply x := by
  cases hr : l.replies with
  | nil => simp [HostLink.choose, ht, hx, hr]
  | cons r rs =>
    have ha : x.ahead = 0 := by simpa [hr] using ha
    simp [HostLink.choose, ht, hx, hr, ha]

theorem HostLink.choose_refusal {r : HostFrame} {rs : List HostFrame} (ht : l.transmitter = none)
    (hx : l.execution = none) (hr : l.replies = r :: rs) :
    l.choose = { l with transmitter := some r, replies := rs } := by
  simp [HostLink.choose, ht, hx, hr]

theorem HostLink.choose_notice (ht : l.transmitter = none) (hx : l.execution = none) (hr : l.replies = []) :
    l.choose = l.beginNotice := by
  simp [HostLink.choose, ht, hx, hr]

theorem HostLink.beginNotice_none (h : l.mode = .pull ∨ l.receiver ≠ .hunting ∨ l.notices = []) : l.beginNotice = l := by
  unfold HostLink.beginNotice
  split
  · simp_all
  · rfl

/-- Settles O10, by the state of the transmitter, the command in execution and the reply list. -/
theorem idleTransmitterChoosesInOrder : Obligations.IdleTransmitterChoosesInOrder := by
  intro l
  refine ⟨fun f h => HostLink.choose_busy h, fun ht => ⟨?ahead, ?reply, ?unbuilt, ?refusal, ?notice, ?nothing⟩⟩
  case ahead => exact fun x r rs hx ha hr => HostLink.choose_refusal_ahead ht hx ha hr
  case reply =>
    intro x f hx ha hf hb
    rw [HostLink.choose_turn ht hx ha, HostLink.beginReply, hf, hb]
  case unbuilt =>
    intro x hx ha hf
    rw [HostLink.choose_turn ht hx ha, HostLink.beginReply, hf]
  case refusal => exact fun r rs hx hr => HostLink.choose_refusal ht hx hr
  case notice =>
    intro n ns hx hr hm hrec hn
    rw [HostLink.choose_notice ht hx hr, HostLink.beginNotice, hm, hrec, hn]
  case nothing =>
    intro hx hr h
    rw [HostLink.choose_notice ht hx hr, HostLink.beginNotice_none h]

/-! ### The end of a transmission (R168, R169) -/

theorem State.wake_busy {f : HostFrame} (h : s.link.transmitter = some f) : s.wake = s := by
  unfold State.wake State.mapLink
  rw [HostLink.choose_busy h]

theorem exec_frameSent {f : HostFrame} (h : s.link.transmitter = some f) :
    exec .frameSent s = .next { s with link := s.link.finishFrame.choose } := by
  show Host.Outcome.next ((s.wake.mapLink HostLink.finishFrame).wake) = _
  rw [State.wake_busy h]; rfl

theorem receivedCode_eq (bytes : List Byte) : receivedCode bytes = bytes[1]?.getD 0 := by
  match bytes with
  | [] => rfl
  | [_] => rfl
  | _ :: _ :: _ => rfl

/-- A frame cut by a new rate is refused with GAP, or lost with 16 refusals held; either way the flag is set. -/
theorem HostLink.setRate_inFrame {bytes : List Byte} (r : LinkRate) (h : l.receiver = .inFrame bytes) :
    l.setRate r =
      { l with
        rate := r, receiver := .hunting, flags := { l.flags with frameErrors := true },
        replies := if l.replies.length < 16 then l.replies ++ [refusalFrame (bytes[1]?.getD 0) .gap] else l.replies } := by
  simp only [HostLink.setRate, h, HostLink.refuseFrame, RefusalCode.isReceiveError, Config.replyPlaces, if_true,
    receivedCode_eq]
  split <;> rfl

theorem HostLink.setRate_hunting (r : LinkRate) (h : l.receiver = .hunting) : l.setRate r = { l with rate := r } := by
  simp only [HostLink.setRate, h]

/-- Settles O11: the frame that ends is no command's reply, or it is the reply of a command with or without a new rate. -/
theorem frameSentEndsTheTransmission : Obligations.FrameSentEndsTheTransmission := by
  intro s f h
  refine ⟨_, exec_frameSent h, rfl, fun hx => ?free, fun x hx => ⟨fun hb => ?other, fun hb hr => ?reply, fun r hb hr =>
    ⟨fun hrec => ?hunting, fun bytes hrec => ?inFrame⟩⟩⟩
  case free => simp only [HostLink.finishFrame, h, hx]
  case other => simp [HostLink.finishFrame, h, hx, hb]
  case reply => simp [HostLink.finishFrame, h, hx, hb, hr]
  case hunting =>
    simp only [HostLink.finishFrame, h, hx, hb, hr, if_true]
    rw [HostLink.setRate_hunting r (by exact hrec)]
  case inFrame =>
    simp only [HostLink.finishFrame, h, hx, hb, hr, if_true]
    rw [HostLink.setRate_inFrame r (by exact hrec)]

/-! ### Frames refused without execution (R165, R166) -/

/-- A command in execution keeps the transmitter busy, also once the idle transmitter has chosen. -/
theorem State.wake_idle_free (h : s.link.execution ≠ none → s.link.transmitter ≠ none)
    (ht : s.wake.link.transmitter = none) : s.link.execution = none ∧ s.wake.link.execution = none := by
  by_cases hx : s.link.execution = none
  · exact ⟨hx, HostLink.choose_execution_none hx⟩
  · obtain ⟨f, hf⟩ := Option.ne_none_iff_exists'.mp (h hx)
    rw [State.wake_busy hf, hf] at ht
    cases ht

/-- The link once a frame has been refused, before the transmitter chooses. -/
theorem HostLink.refuseFrame_eq (l : HostLink) (code : Byte) (r : RefusalCode) :
    l.refuseFrame code r =
      { l with
        flags := { l.flags with
          frameErrors := l.flags.frameErrors || r.isReceiveError || decide (16 ≤ l.replies.length) },
        replies := if l.replies.length < 16 then l.replies ++ [refusalFrame code r] else l.replies } := by
  obtain ⟨rate, receiver, execution, replies, transmitter, mode, selection, notices, ⟨fe, te, sy, nd, ac⟩, k⟩ := l
  simp only [HostLink.refuseFrame, Config.replyPlaces]
  by_cases h : replies.length < 16
  · have h' : ¬ 16 ≤ replies.length := by omega
    cases r.isReceiveError <;> simp [h, h']
  · have h' : 16 ≤ replies.length := by omega
    cases r.isReceiveError <;> simp [h, h']

/-- A refused frame: it waits, is begun at an idle transmitter, or is lost (R166). -/
theorem State.frameRefused (h : s.link.execution ≠ none → s.link.transmitter ≠ none) (code : Byte) (r : RefusalCode) :
    FrameRefused s (s.wake.refuseHostFrame code r) (refusalFrame code r) r.isReceiveError := by
  have hlink : (s.wake.refuseHostFrame code r).link =
      (HostLink.refuseFrame { s.wake.link with receiver := .hunting } code r).choose := rfl
  have hrest : s.wake.refuseHostFrame code r = { s with link := (s.wake.refuseHostFrame code r).link } := rfl
  rw [HostLink.refuseFrame_eq] at hlink
  cases ht : s.wake.link.transmitter with
  | some g =>
    rw [HostLink.choose_busy (by exact ht)] at hlink
    constructor
    case rest => exact hrest
    case placed =>
      intro hlen
      rw [hlink, if_neg (by rw [ht]; simp)]
      exact ⟨rfl, if_pos hlen⟩
    case lost =>
      intro hlen
      rw [hlink]
      exact ⟨rfl, if_neg (Nat.not_lt.mpr hlen)⟩
    all_goals simp [hlink]
  | none =>
    obtain ⟨hx, hxw⟩ := State.wake_idle_free h ht
    have hreplies : s.wake.link.replies = [] := HostLink.choose_idle hx ht
    have hlen : s.wake.link.replies.length < 16 := by rw [hreplies]; decide
    rw [if_pos hlen, HostLink.choose_refusal (r := refusalFrame code r) (rs := []) (by exact ht) (by exact hxw)
      (by rw [hreplies]; rfl)] at hlink
    constructor
    case rest => exact hrest
    case placed => intro _; rw [hlink, if_pos ht]; exact ⟨rfl, rfl⟩
    case lost => intro hl; omega
    all_goals simp [hlink]

/-! ### The command of a frame (R165) -/

/-- What the Code and Length tests find agrees with the Lengths that the table of 12.3 gives the code. -/
def FrameTest.fits (lengths : List Nat) (p : List Byte) : FrameTest → Prop
  | .unknown => lengths = []
  | .badLength => lengths ≠ [] ∧ p.length ∉ lengths
  | .command _ => p.length ∈ lengths

theorem params0_fits (p : List Byte) (f) : (params0 p f).fits [0] p := by
  match p with
  | [] => simp [params0, FrameTest.fits]
  | _ :: _ => simp [params0, FrameTest.fits]

theorem params1_fits (p : List Byte) (f) : (params1 p f).fits [1] p := by
  match p with
  | [] | [_] | _ :: _ :: _ => simp [params1, FrameTest.fits]

theorem params2_fits (p : List Byte) (f) : (params2 p f).fits [2] p := by
  match p with
  | [] | [_] | [_, _] | _ :: _ :: _ :: _ => simp [params2, FrameTest.fits]

theorem params0Ref_fits (p : List Byte) (f) : (params0Ref p f).fits [1, 3] p := by
  match p with
  | [] | [_] | [_, _] | [_, _, _] | _ :: _ :: _ :: _ :: _ => simp [params0Ref, FrameTest.fits]

theorem params1Ref_fits (p : List Byte) (f) : (params1Ref p f).fits [2, 4] p := by
  match p with
  | [] | [_] | [_, _] | [_, _, _] | [_, _, _, _] | _ :: _ :: _ :: _ :: _ :: _ => simp [params1Ref, FrameTest.fits]

theorem params2Ref_fits (p : List Byte) (f) : (params2Ref p f).fits [3, 5] p := by
  match p with
  | [] | [_] | [_, _] | [_, _, _] | [_, _, _, _] | [_, _, _, _, _] | _ :: _ :: _ :: _ :: _ :: _ :: _ =>
    simp [params2Ref, FrameTest.fits]

theorem paramsInject_fits (p : List Byte) : (paramsInject p).fits [4, 5, 6] p := by
  match p with
  | [] | [_] | [_, _] | [_, _, _] | [_, _, _, _] | [_, _, _, _, _] | [_, _, _, _, _, _]
  | _ :: _ :: _ :: _ :: _ :: _ :: _ :: _ => simp [paramsInject, FrameTest.fits]

theorem paramsNoticeMode_fits (p : List Byte) : (paramsNoticeMode p).fits [3] p := by
  match p with
  | [] | [_] | [_, _] | [_, _, _] | _ :: _ :: _ :: _ :: _ => simp [paramsNoticeMode, FrameTest.fits]

theorem paramsEnrol_fits (p : List Byte) : (paramsEnrol p).fits [6] p := by
  match p with
  | [] | [_] | [_, _] | [_, _, _] | [_, _, _, _] | [_, _, _, _, _] | [_, _, _, _, _, _]
  | _ :: _ :: _ :: _ :: _ :: _ :: _ :: _ => simp [paramsEnrol, FrameTest.fits]

/-- The Code and Length tests of R165 follow the table of 12.3. -/
theorem commandOf_fits (code : Byte) (p : List Byte) : (commandOf code p).fits (commandLengths code) p := by
  unfold commandOf
  split
  case h_29 =>
    show commandLengths code = []
    unfold commandLengths
    split <;> first | rfl | simp_all
  all_goals
    rename_i hcode
    simp only [commandLengths, hcode]
    first
    | exact params0_fits _ _ | exact params1_fits _ _ | exact params2_fits _ _
    | exact params0Ref_fits _ _ | exact params1Ref_fits _ _ | exact params2Ref_fits _ _
    | exact paramsInject_fits _ | exact paramsNoticeMode_fits _ | exact paramsEnrol_fits _

theorem commandOf_command {p : List Byte} (h : p.length ∈ commandLengths code) :
    ∃ body, commandOf code p = .command body := by
  have hf := commandOf_fits code p
  cases hc : commandOf code p with
  | unknown => rw [hc] at hf; rw [show commandLengths code = [] from hf] at h; cases h
  | badLength => rw [hc] at hf; exact absurd h hf.2
  | command body => exact ⟨body, rfl⟩

theorem State.wake_busy_execution (h : s.link.execution ≠ none → s.link.transmitter ≠ none) (hx : s.link.execution ≠ none) :
    s.wake = s := by
  obtain ⟨f, hf⟩ := Option.ne_none_iff_exists'.mp (h hx)
  exact State.wake_busy hf

/-- A complete command frame that ends while a command is in execution is refused with LOST (R166). -/
theorem State.runCommand_lost (hx : s.link.execution ≠ none) (body : State → CommandReply) :
    s.runCommand code body = s.refuseHostFrame code .lost := by
  obtain ⟨x, hx⟩ := Option.ne_none_iff_exists'.mp hx
  rw [State.runCommand, hx]

/-- Settles O12, by the shared lemma on refused frames. -/
theorem unexecutedFramesAreRefused : Obligations.UnexecutedFramesAreRefused := by
  intro s code h
  refine ⟨⟨_, rfl, State.frameRefused h code .check⟩, ⟨_, rfl, State.frameRefused h code .unknown⟩,
    ⟨_, rfl, State.frameRefused h code .length⟩, fun bytes hrec => ?gap, fun hrec => ?idle, fun p hx hp => ?lost⟩
  case gap =>
    refine ⟨s.wake.refuseHostFrame (bytes[1]?.getD 0) .gap, ?_, State.frameRefused h _ .gap⟩
    show Host.Outcome.next s.wake.expireGap = _
    rw [State.expireGap, State.wake_link, HostLink.choose_receiver, hrec, ← receivedCode_eq]
  case idle =>
    show Host.Outcome.next s.wake.expireGap = _
    rw [State.expireGap, State.wake_link, HostLink.choose_receiver, hrec]
  case lost =>
    obtain ⟨body, hb⟩ := commandOf_command hp
    refine ⟨s.wake.refuseHostFrame code .lost, ?_, State.frameRefused h code .lost⟩
    show Host.Outcome.next (s.wake.endCommandFrame code p) = _
    rw [State.endCommandFrame, hb, State.wake_busy_execution h hx]
    exact congrArg _ (State.runCommand_lost hx body)

end Sys2Proof.Machine
end

section
/-! A command that names an antenna above 23 (R33, R34, R39, R42, R161). -/

namespace Sys2Proof.Machine

/-- A command whose body names an antenna by this byte is refused. -/
theorem hostCommand_above23 {s : State} {b code : Byte} {k : AntennaNo → State → CommandReply}
    (h : s.link.execution = none) (hb : 24 ≤ b.toNat) :
    ∃ t, hostCommand code (withAntenna b k) s = .next t ∧ Refused s t code .badValue :=
  hostCommand_refused h (withAntenna_above hb k)

/-- Settles O13: each of the eleven bodies names its antenna by `withAntenna`. -/
theorem antennaAbove23IsRefused : Obligations.AntennaAbove23IsRefused := by
  intro s b m p h hb
  exact ⟨hostCommand_above23 h hb, hostCommand_above23 h hb, hostCommand_above23 h hb, hostCommand_above23 h hb,
    hostCommand_above23 h hb, hostCommand_above23 h hb, hostCommand_above23 h hb, hostCommand_above23 h hb,
    hostCommand_above23 h hb, hostCommand_above23 h hb, hostCommand_above23 h hb⟩

end Sys2Proof.Machine
end

section
/-! What the part's own work leaves alone. The dispositions, the sweep of a slot, the dispatch and the reports queue notices, latch flags and change slots, lanes, ports, contexts, requests and the changeable fields of entries; they leave what the host has set. Each operation is gone through once, and its frame is stated as one relation between the state before and after. -/

namespace Sys2Proof.Machine

variable {s t u : State} {a b : AntennaNo} {sl : SlotNo} {e : EntryNo} {c : ContextNo}

/-! ### The Host Link -/

/-- What the blocks' work can do to the Host Link: queue notices, and change the latched flags and the accrued set. -/
inductive LinkWork (l : HostLink) : HostLink → Prop
  | refl : LinkWork l l
  | notice {l' : HostLink} (h : LinkWork l l') (n : Notice) : LinkWork l (l'.queueNotice n)
  | latch {l' : HostLink} (h : LinkWork l l') (fl : LatchedFlags) (k : ConditionSet) :
      LinkWork l { l' with flags := fl, domainAccrued := k }

theorem LinkWork.trans {l l' l'' : HostLink} (h : LinkWork l l') (h' : LinkWork l' l'') : LinkWork l l'' := by
  induction h' with
  | refl => exact h
  | notice _ n ih => exact ih.notice n
  | latch _ fl k ih => exact ih.latch fl k

theorem HostLink.queueNotice_settings (l : HostLink) (n : Notice) :
    (l.queueNotice n).rate = l.rate ∧ (l.queueNotice n).mode = l.mode ∧ (l.queueNotice n).selection = l.selection ∧
      (l.queueNotice n).receiver = l.receiver := by
  unfold HostLink.queueNotice
  split
  · exact ⟨rfl, rfl, rfl, rfl⟩
  · split <;> simp

/-- Work keeps the settings of the link and its receiver. -/
theorem LinkWork.settings {l l' : HostLink} (h : LinkWork l l') :
    l'.rate = l.rate ∧ l'.mode = l.mode ∧ l'.selection = l.selection ∧ l'.receiver = l.receiver := by
  induction h with
  | refl => exact ⟨rfl, rfl, rfl, rfl⟩
  | @notice l' _ n ih =>
    obtain ⟨h1, h2, h3, h4⟩ := l'.queueNotice_settings n
    exact ⟨h1.trans ih.1, h2.trans ih.2.1, h3.trans ih.2.2.1, h4.trans ih.2.2.2⟩
  | latch _ _ _ ih => exact ih

/-- Work on the link keeps a command at work. -/
theorem AtWork.linkWork {code : Byte} (h : AtWork s t code) (hl : LinkWork t.link u.link) : AtWork s u code := by
  have key : ∀ l, LinkWork t.link l → AtWork s { t with link := l } code := by
    intro l hl
    induction hl with
    | refl => exact h
    | notice _ n ih => exact ih.queueNotice n
    | latch _ fl k ih => exact ⟨⟨ih.inCommand.execution, ih.inCommand.idle⟩, ih.receiver, ih.transmitter, ih.replies, ih.rate⟩
  exact (key u.link hl).of_link rfl

/-! ### Slots after a write -/

theorem State.slot_setSlot (s : State) (a b : AntennaNo) (sl sl' : SlotNo) (v : Slot) :
    (s.setSlot a sl v).slot b sl' = if a = b ∧ sl = sl' then v else s.slot b sl' := by
  by_cases ha : a = b
  · subst ha
    simp only [State.slot, State.setSlot, State.ant_mapAnt_self, true_and]
    split
    · rename_i h; subst h; exact get_set_self _ _ _
    · rename_i h; exact get_set_ne _ _ h
  · rw [if_neg (fun h => ha h.1)]
    simp only [State.slot, State.setSlot]
    rw [State.ant_mapAnt_ne _ _ ha]

theorem State.ant_setSlot (s : State) (a b : AntennaNo) (sl : SlotNo) (v : Slot) :
    (s.setSlot a sl v).ant b = { s.ant b with slots := ((s.setSlot a sl v).ant b).slots } := by
  by_cases ha : a = b
  · subst ha; simp [State.setSlot]
  · simp [State.setSlot, State.ant_mapAnt_ne _ _ ha]

/-! ### The relation -/

/-- The fields of an entry that the host has set. -/
def Entry.given (x : Entry) : BeltpackId × ClassNo × Option Group × Option Group × Bool × Admission :=
  (x.id, x.cls, x.groupA, x.groupB, x.pinned, x.admission)

/-- The fields of an antenna record but its slots and lanes. -/
def Antenna.record (r : Antenna) : LinkState × Bool × AdminState × LoopbackMode × Bool × Nat × Nat :=
  (r.link, r.fault, r.admin, r.loopback, r.changed, r.probeMisses, r.orderMisses)

theorem Antenna.carrying_of_record {r r' : Antenna} (h : r'.record = r.record) : r'.carrying = r.carrying := by
  simp only [Antenna.record, Prod.mk.injEq] at h
  simp [Antenna.carrying, h]

theorem Antenna.open_of_record {r r' : Antenna} (h : r'.record = r.record) : r'.open = r.open := by
  have hc := Antenna.carrying_of_record h
  simp only [Antenna.record, Prod.mk.injEq] at h
  simp [Antenna.open, h, hc]

/-- What the part's work keeps: what the host has set, the records of the antennas but slots and lanes, the Stranger List,
and the settings of the link, which takes notices and latched flags alone. -/
structure Worked (s t : State) : Prop where
  policy : t.policy = s.policy
  running : t.running = s.running
  pending : t.pending = s.pending
  freeIndex : t.freeIndex = s.freeIndex
  strangers : t.strangers = s.strangers
  link : LinkWork s.link t.link
  entries : ∀ e, (t.entry e).map Entry.given = (s.entry e).map Entry.given
  records : ∀ a, (t.ant a).record = (s.ant a).record

/-- At an antenna that is not open no lane changes, and no Free slot is taken. -/
structure ClosedKept (s t : State) : Prop where
  lanes : ∀ a, (s.ant a).open = false → (t.ant a).lanes = (s.ant a).lanes
  free : ∀ a sl, (s.ant a).open = false → s.slot a sl = .free → t.slot a sl = .free

theorem Worked.refl (s : State) : Worked s s := ⟨rfl, rfl, rfl, rfl, rfl, .refl, fun _ => rfl, fun _ => rfl⟩

theorem Worked.trans (h : Worked s t) (h' : Worked t u) : Worked s u where
  policy := h'.policy.trans h.policy
  running := h'.running.trans h.running
  pending := h'.pending.trans h.pending
  freeIndex := h'.freeIndex.trans h.freeIndex
  strangers := h'.strangers.trans h.strangers
  link := h.link.trans h'.link
  entries e := (h'.entries e).trans (h.entries e)
  records a := (h'.records a).trans (h.records a)

/-- Work that leaves the antennas that are not open as they are, but for slots given up. -/
structure Settled (s t : State) : Prop extends Worked s t, ClosedKept s t

theorem Settled.refl (s : State) : Settled s s := ⟨.refl s, fun _ _ => rfl, fun _ _ _ h => h⟩

theorem Settled.trans (h : Settled s t) (h' : Settled t u) : Settled s u where
  toWorked := h.toWorked.trans h'.toWorked
  lanes a ho := (h'.lanes a (by rw [Antenna.open_of_record (h.records a)]; exact ho)).trans (h.lanes a ho)
  free a sl ho hf := h'.free a sl (by rw [Antenna.open_of_record (h.records a)]; exact ho) (h.free a sl ho hf)

/-- A state that differs in link, roster, queue, contexts and ports alone, the link by work and the entries in no field that
the host has set. -/
theorem settled_of {l : HostLink} {r : Vector (Option Entry) 96} {q : List Request} {n : Nat}
    {cs : Vector (Option Context) 8} {po : Vector Port 24} (hl : LinkWork s.link l)
    (hr : ∀ e, (r.get e).map Entry.given = (s.entry e).map Entry.given) :
    Settled s (State.mk l s.policy r s.strangers q n cs s.running s.antennas po s.freeIndex s.pending) :=
  ⟨⟨rfl, rfl, rfl, rfl, rfl, hl, hr, fun _ => rfl⟩, fun _ _ => rfl, fun _ _ _ h => h⟩

theorem settled_kept {q : List Request} {n : Nat} {cs : Vector (Option Context) 8} {po : Vector Port 24} :
    Settled s (State.mk s.link s.policy s.roster s.strangers q n cs s.running s.antennas po s.freeIndex s.pending) :=
  settled_of .refl fun _ => rfl

/-! ### The simplest changes -/

theorem State.putCtx_settled (s : State) (c : ContextNo) (x : Option Context) : Settled s (s.putCtx c x) := settled_kept

theorem State.mapCtx_settled (s : State) (c : ContextNo) (f : Context → Context) : Settled s (s.mapCtx c f) := by
  unfold State.mapCtx; split
  · exact .refl s
  · exact s.putCtx_settled _ _

theorem State.mapPort_settled (s : State) (a : AntennaNo) (f : Port → Port) : Settled s (s.mapPort a f) := settled_kept

theorem State.beginExchange_settled (s : State) (a : AntennaNo) : Settled s (s.beginExchange a) := s.mapPort_settled _ _

theorem State.postOrder_settled (s : State) (a : AntennaNo) (o : Order) : Settled s (s.postOrder a o) :=
  (s.mapPort_settled _ _).trans (State.beginExchange_settled _ _)

theorem State.endExchange_settled (s : State) (a : AntennaNo) : Settled s (s.endExchange a) := s.mapPort_settled _ _

theorem State.mapEntry_settled (s : State) (e : EntryNo) {f : Entry → Entry}
    (hf : ∀ x, (f x).given = x.given := by intro x; rfl) : Settled s (s.mapEntry e f) := by
  cases he : s.entry e with
  | none => simp only [State.mapEntry, he]; exact .refl s
  | some x =>
    rw [State.mapEntry_eq he]
    refine settled_of .refl fun e' => ?_
    by_cases h : e = e'
    · subst h; rw [get_set_self, he]; exact congrArg some (hf x)
    · rw [get_set_ne _ _ h]; rfl

theorem State.queueNotice_settled (s : State) (n : Notice) : Settled s (s.queueNotice n) :=
  settled_of (.notice .refl n) fun _ => rfl

theorem State.mapLink_settled (s : State) {f : HostLink → HostLink}
    (hf : LinkWork s.link (f s.link) := by exact .latch .refl _ _) : Settled s (s.mapLink f) :=
  settled_of hf fun _ => rfl

theorem State.latchStray_settled (s : State) : Settled s s.latchStray := s.mapLink_settled

theorem State.removeRequest_settled (s : State) (e : EntryNo) : Settled s (s.removeRequest e) := settled_kept

theorem State.enqueue_settled (s : State) (r : Request) : Settled s (s.enqueue r) := settled_kept

theorem State.raiseRequest_settled (s : State) (e : EntryNo) (w : Raise) : Settled s (s.raiseRequest e w) := by
  rw [State.raiseRequest_rest]; exact settled_kept

theorem State.mapSurvey_settled (s : State) (e : EntryNo) (f : Survey → Survey) : Settled s (s.mapSurvey e f) :=
  s.mapEntry_settled e

theorem State.notify_settled (s : State) (e : EntryNo) (n : BeltpackId → Notice) : Settled s (s.notify e n) := by
  unfold State.notify; split
  · exact .refl s
  · exact s.queueNotice_settled _

theorem State.recordConditions_settled (s : State) (e : EntryNo) (k : ConditionSet) :
    Settled s (s.recordConditions e k) :=
  Settled.trans (State.mapEntry_settled _ _) (State.mapLink_settled _)

theorem State.recordReleaseTimeout_settled (s : State) (e : EntryNo) : Settled s (s.recordReleaseTimeout e) :=
  Settled.trans (State.mapEntry_settled _ _) (State.mapLink_settled _)

/-! ### Slots -/

/-- A slot that is not Free, or is given up, changes its state. -/
theorem State.setSlot_settled {v : Slot} (h : s.slot a sl ≠ .free ∨ v = .free) : Settled s (s.setSlot a sl v) where
  policy := rfl
  running := rfl
  pending := rfl
  freeIndex := rfl
  strangers := rfl
  link := .refl
  entries _ := rfl
  records b := by rw [State.ant_setSlot]; rfl
  lanes b _ := by rw [State.ant_setSlot]
  free b sl' _ hf := by
    rw [State.slot_setSlot]
    split
    · rename_i hs
      obtain ⟨rfl, rfl⟩ := hs
      exact h.resolve_left (fun hn => hn hf)
    · exact hf

theorem State.releaseSlot_settled (s : State) (a : AntennaNo) (sl : SlotNo) : Settled s (s.releaseSlot a sl) := by
  unfold State.releaseSlot
  split
  next e hs =>
    split
    · exact .refl s
    · exact (State.setSlot_settled (.inl (by rw [hs]; nofun))).trans (State.postOrder_settled _ _ _)
  next e hs =>
    split
    · exact .refl s
    · exact (State.setSlot_settled (.inl (by rw [hs]; nofun))).trans (State.postOrder_settled _ _ _)
  next => exact .refl s
  next => exact .refl s

theorem State.releaseAt_settled (s : State) (x : Option (AntennaNo × SlotNo)) : Settled s (s.releaseAt x) := by
  unfold State.releaseAt; split
  · exact .refl s
  · exact s.releaseSlot_settled _ _

/-- A claim at an open antenna. -/
theorem State.claim_settled (ho : (s.ant a).open = true) (sl : SlotNo) (e : EntryNo) (groups : List Group) :
    Settled s (s.claim a sl e groups) := by
  have other : ∀ b, (s.ant b).open = false → (s.claim a sl e groups).ant b = s.ant b := by
    intro b hb
    have hab : a ≠ b := fun h => by rw [h, hb] at ho; cases ho
    rw [State.claim_eq]; exact get_set_ne _ _ hab
  refine ⟨⟨?_, ?_, ?_, ?_, ?_, ?_, ?_, fun b => ?_⟩, fun b hb => ?_, fun b sl' hb hf => ?_⟩
  case refine_8 =>
    rw [State.claim_eq]
    by_cases hab : a = b
    · subst hab; simp only [State.ant_mk, get_set_self]; rfl
    · simp only [State.ant_mk, get_set_ne _ _ hab]; rfl
  case refine_9 => rw [other b hb]
  case refine_10 => rw [State.slot, other b hb]; exact hf
  all_goals rw [State.claim_eq]
  · exact .refl
  · exact fun _ => rfl

/-! ### The Handoff Engine -/

theorem State.stopAwaiting_settled (s : State) (c : ContextNo) : Settled s (s.stopAwaiting c) := by
  unfold State.stopAwaiting; split
  · exact .refl s
  · split
    · exact .refl s
    · exact (s.mapPort_settled _ _).trans (State.mapCtx_settled _ _ _)

theorem State.undoReservation_settled (s : State) (c : ContextNo) : Settled s (s.undoReservation c) := by
  unfold State.undoReservation; split
  · exact .refl s
  · refine Settled.trans ?_ (State.mapCtx_settled _ _ _)
    split
    · split
      · exact s.releaseSlot_settled _ _
      · exact .refl s
    · exact .refl s

theorem State.giveUpAttempt_settled (s : State) (c : ContextNo) : Settled s (s.giveUpAttempt c) :=
  ((s.mapCtx_settled _ _).trans (State.stopAwaiting_settled _ _)).trans (State.undoReservation_settled _ _)

theorem Entry.endTransaction_given (x : Entry) (k : Kind) (ms : Nat) : (x.endTransaction k ms).given = x.given := by
  unfold Entry.endTransaction
  split <;> first | rfl | (split <;> rfl)

theorem State.notifyEnd_settled (s : State) (e : EntryNo) (x : Entry) (k : Kind) : Settled s (s.notifyEnd e x k) := by
  unfold State.notifyEnd
  split
  · exact s.queueNotice_settled _
  · exact s.queueNotice_settled _
  · exact s.queueNotice_settled _
  · exact .refl s

theorem State.endTransaction_settled (s : State) (c : ContextNo) : Settled s (s.endTransaction c) := by
  unfold State.endTransaction; split
  · exact .refl s
  · simp only
    split
    · exact s.putCtx_settled _ _
    · exact ((s.putCtx_settled _ _).trans (State.mapEntry_settled _ _ fun x => x.endTransaction_given _ _)).trans
        (State.notifyEnd_settled _ _ _ _)

theorem State.reportForced_settled (s : State) (x : Context) (k : Condition) (d : Decision) :
    Settled s (s.reportForced x k d) := by
  unfold State.reportForced; split
  · exact .refl s
  · split
    · exact s.queueNotice_settled _
    · exact .refl s

theorem State.postFault_settled (s : State) (c : ContextNo) (x : Context) (k : Condition) :
    Settled s (s.postFault c x k) := by
  unfold State.postFault
  refine (s.giveUpAttempt_settled c).trans ?_
  simp only
  split
  · exact State.endTransaction_settled _ _
  · exact ((State.mapEntry_settled _ _).trans (State.queueNotice_settled _ _)).trans
      (State.endTransaction_settled _ _)

theorem State.moveOn_settled (s : State) (c : ContextNo) (x : Context) : Settled s (s.moveOn c x) :=
  (s.giveUpAttempt_settled c).trans (State.mapCtx_settled _ _ _)

theorem State.requeue_settled (s : State) (x : Context) (n : Nat) (d : Bool) : Settled s (s.requeue x n d) :=
  s.enqueue_settled _

theorem State.displace_settled (s : State) (c : ContextNo) (x : Context) (v : EntryNo) : Settled s (s.displace c x v) :=
  (((s.giveUpAttempt_settled c).trans (State.requeue_settled _ _ _ _)).trans (State.endTransaction_settled _ _)).trans
    (State.raiseRequest_settled _ _ _)

theorem State.reEnter_settled (s : State) (c : ContextNo) (x : Context) : Settled s (s.reEnter c x) :=
  ((s.giveUpAttempt_settled c).trans (State.requeue_settled _ _ _ _)).trans (State.endTransaction_settled _ _)

theorem State.postAwaited_settled (s : State) (c : ContextNo) (a : AntennaNo) (o : Order) :
    Settled s (s.postAwaited c a o) :=
  (s.mapCtx_settled _ _).trans (State.postOrder_settled _ _ _)

theorem State.postSummon_settled (s : State) (c : ContextNo) : Settled s (s.postSummon c) := by
  unfold State.postSummon; split
  · exact .refl s
  · split
    · exact s.postAwaited_settled _ _ _
    · exact .refl s

theorem State.convert_settled (s : State) (c : ContextNo) (x : Context) : Settled s (s.convert c x) := by
  have h : Settled s ((s.mapCtx c fun y => { y with kind := .summon, source := none }).mapEntry x.entry fun y =>
      { y with state := .attaching, serving := none, survey := { y.survey with servingScore := none } }) :=
    (s.mapCtx_settled _ _).trans (State.mapEntry_settled _ _)
  unfold State.convert
  simp only
  split
  · exact ((h.trans (State.stopAwaiting_settled _ _)).trans (State.mapCtx_settled _ _ _)).trans
      (State.postSummon_settled _ _)
  · exact h

theorem State.seekAdmission_settled (s : State) (c : ContextNo) (x : Context) (a : AntennaNo) :
    Settled s (s.seekAdmission c x a).1 := by
  unfold State.seekAdmission
  split
  · exact .refl s
  · split
    · exact .refl s
    · rename_i ho
      have ho : (s.ant a).open = true := by simpa using ho
      simp only
      split
      · exact ((State.claim_settled ho _ _ _).trans (State.mapCtx_settled _ _ _)).trans (State.postAwaited_settled _ _ _ _)
      · exact .refl s

theorem State.tryTarget_settled (s : State) (c : ContextNo) (first : Bool) : Settled s (s.tryTarget c first).1 := by
  unfold State.tryTarget
  split
  · exact .refl s
  · split
    · exact s.mapCtx_settled _ _
    · exact (s.mapCtx_settled _ _).trans (State.seekAdmission_settled _ _ _ _)

theorem State.disposeChain_settled (n : Nat) (c : ContextNo) : ∀ (found : ConditionSet) (s : State),
    Settled s (State.disposeChain n c found s) := by
  induction n with
  | zero => exact fun _ s => .refl s
  | succ n ih =>
    intro found s
    rw [State.disposeChain]
    split
    next x k _ _ =>
      simp only
      generalize hd : (s.recordConditions x.entry found).decideDisposal x k = d
      refine Settled.trans ((s.recordConditions_settled x.entry found).trans (State.reportForced_settled _ x k d)) ?_
      cases d with
      | post => exact State.postFault_settled _ _ _ _
      | stop => exact (State.giveUpAttempt_settled _ _).trans (State.endTransaction_settled _ _)
      | reEnter => exact State.reEnter_settled _ _ _
      | displace v => exact State.displace_settled _ _ _ _
      | convert => exact State.convert_settled _ _ _
      | next =>
        simp only
        have h := (State.moveOn_settled ((s.recordConditions x.entry found).reportForced x k .next) c x).trans
          (State.tryTarget_settled _ c false)
        split
        · exact h
        · exact h.trans (ih _ _)
    next => exact .refl s

theorem State.dispose_settled (s : State) (c : ContextNo) (found : ConditionSet) : Settled s (s.dispose c found) :=
  State.disposeChain_settled _ _ _ _

theorem Entry.dispatch_given (x : Entry) (c : ContextNo) (fresh : Bool) : (x.dispatch c fresh).given = x.given := by
  unfold Entry.dispatch
  simp only
  split <;> rfl

theorem State.handOver_settled (s : State) (c : ContextNo) (r : Request) : Settled s (s.handOver c r) := by
  unfold State.handOver
  refine (s.removeRequest_settled r.entry).trans ?_
  simp only
  split
  · exact .refl _
  next y _ =>
    refine Settled.trans (t := ((s.removeRequest r.entry).mapEntry r.entry (·.dispatch c r.fresh)).putCtx c
      (some (r.context y))) ?_ ?_
    · exact Settled.trans (State.mapEntry_settled _ _ fun x => x.dispatch_given c r.fresh) (State.putCtx_settled _ _ _)
    · split
      · exact State.tryTarget_settled _ _ _
      · exact (State.tryTarget_settled _ _ _).trans (State.dispose_settled _ _ _)

theorem State.dispatchLoop_settled (n : Nat) : ∀ s : State, Settled s (State.dispatchLoop n s) := by
  induction n with
  | zero => exact fun s => .refl s
  | succ n ih =>
    intro s
    rw [State.dispatchLoop]
    split
    · exact .refl s
    · rename_i u hu
      unfold State.dispatchOne at hu
      split at hu
      · obtain rfl := Option.some.inj hu
        exact (s.handOver_settled _ _).trans (ih _)
      · cases hu

theorem State.settle_settled (s : State) : Settled s s.settle := State.dispatchLoop_settled _ _

theorem Entry.complete_given (x : Entry) (ms : Nat) : (x.complete ms).given = x.given := by
  unfold Entry.complete
  split <;> first | rfl | (split <;> rfl)

theorem State.complete_settled (s : State) (c : ContextNo) : Settled s (s.complete c) := by
  unfold State.complete; split
  · exact .refl s
  next x _ =>
    split
    · exact s.putCtx_settled _ _
    · simp only
      refine Settled.trans (Settled.trans ?_ (State.queueNotice_settled _ _)) (State.putCtx_settled _ _ _)
      have h : Settled s ((s.mapSurvey x.entry (·.completeMove s.candidateLifetime)).mapEntry x.entry
          (·.complete (s.mapSurvey x.entry (·.completeMove s.candidateLifetime)).settleTime)) :=
        (s.mapSurvey_settled _ _).trans (State.mapEntry_settled _ _ fun x => x.complete_given _)
      split
      · exact h.trans (State.queueNotice_settled _ _)
      · exact h

theorem State.loseServing_settled (s : State) (e : EntryNo) (a : AntennaNo) : Settled s (s.loseServing e a) :=
  Settled.trans (State.mapEntry_settled _ _) (State.notify_settled _ _ _)

theorem State.detachWith_settled (s : State) (e : EntryNo) (r : UnattachedReason) : Settled s (s.detachWith e r) :=
  Settled.trans (State.mapEntry_settled _ _) (State.notify_settled _ _ _)

theorem State.raiseEvacuation_settled (s : State) (e : EntryNo) : Settled s (s.raiseEvacuation e) := by
  unfold State.raiseEvacuation; split
  · exact .refl s
  · exact s.raiseRequest_settled _ _

/-! ### The sweep of a slot (R135 to R137) -/

theorem State.sweepOccupied_settled (s : State) (a : AntennaNo) (late : Option ContextNo) (e : EntryNo) :
    Settled s (s.sweepOccupied a late e) := by
  unfold State.sweepOccupied; split
  · exact .refl s
  · split
    · exact (s.loseServing_settled _ _).trans (State.raiseEvacuation_settled _ _)
    · split
      · exact .refl s
      · split
        · exact s.loseServing_settled _ _
        · exact s.dispose_settled _ _

theorem State.sweepReserved_settled (s : State) (late : Option ContextNo) (e : EntryNo) :
    Settled s (s.sweepReserved late e) := by
  unfold State.sweepReserved; split
  · exact .refl s
  · exact s.dispose_settled _ _

theorem State.afterRelease_settled (s : State) (a : AntennaNo) (sl : SlotNo) (e : EntryNo) :
    Settled s (s.afterRelease a sl e) := by
  unfold State.afterRelease; split
  · exact .refl s
  · exact s.complete_settled _

theorem State.sweepSlot_settled (s : State) (a : AntennaNo) (late : Option ContextNo) (sl : SlotNo) :
    Settled s (State.sweepSlot a late s sl) := by
  unfold State.sweepSlot
  split
  · exact .refl s
  · exact (State.setSlot_settled (.inr rfl)).trans (State.sweepOccupied_settled _ _ _ _)
  · exact (State.setSlot_settled (.inr rfl)).trans (State.sweepReserved_settled _ _ _)
  · exact (State.setSlot_settled (.inr rfl)).trans (State.afterRelease_settled _ _ _ _)

theorem State.sweepSlots_settled (a : AntennaNo) (late : Option ContextNo) (sls : List SlotNo) : ∀ s : State,
    Settled s (sls.foldl (State.sweepSlot a late) s) := by
  induction sls with
  | nil => exact fun s => .refl s
  | cons sl sls ih => exact fun s => (s.sweepSlot_settled a late sl).trans (ih _)

end Sys2Proof.Machine
end

section
/-! The closing sweep as a whole (R134 to R139, R141): what it leaves alone, and the record of the antenna it has closed. -/

namespace Sys2Proof.Machine

variable {s t u : State} {a b : AntennaNo} {sl : SlotNo} {e : EntryNo} {c : ContextNo}

/-- What every event of the trunk, the timers and the dispatch leaves alone: what the host has set. -/
structure HostKept (s t : State) : Prop where
  policy : t.policy = s.policy
  running : t.running = s.running
  pending : t.pending = s.pending
  freeIndex : t.freeIndex = s.freeIndex
  link : LinkWork s.link t.link
  entries : ∀ e, (t.entry e).map Entry.given = (s.entry e).map Entry.given
  loopback : ∀ a, (t.ant a).loopback = (s.ant a).loopback

theorem HostKept.refl (s : State) : HostKept s s := ⟨rfl, rfl, rfl, rfl, .refl, fun _ => rfl, fun _ => rfl⟩

theorem HostKept.trans (h : HostKept s t) (h' : HostKept t u) : HostKept s u where
  policy := h'.policy.trans h.policy
  running := h'.running.trans h.running
  pending := h'.pending.trans h.pending
  freeIndex := h'.freeIndex.trans h.freeIndex
  link := h.link.trans h'.link
  entries e := (h'.entries e).trans (h.entries e)
  loopback a := (h'.loopback a).trans (h.loopback a)

theorem Antenna.loopback_of_record {r r' : Antenna} (h : r'.record = r.record) : r'.loopback = r.loopback := by
  simp only [Antenna.record, Prod.mk.injEq] at h
  exact h.2.2.2.1

theorem Worked.hostKept (h : Worked s t) : HostKept s t :=
  ⟨h.policy, h.running, h.pending, h.freeIndex, h.link, h.entries, fun a => Antenna.loopback_of_record (h.records a)⟩

/-- The Stranger List and the records of the other antennas are kept too. -/
structure KeptBeside (a : AntennaNo) (s t : State) : Prop extends HostKept s t where
  strangers : t.strangers = s.strangers
  others : ∀ b, b ≠ a → (t.ant b).record = (s.ant b).record

theorem KeptBeside.trans (h : KeptBeside a s t) (h' : KeptBeside a t u) : KeptBeside a s u :=
  ⟨h.toHostKept.trans h'.toHostKept, h'.strangers.trans h.strangers, fun b hb => (h'.others b hb).trans (h.others b hb)⟩

theorem Worked.keptBeside (h : Worked s t) (a : AntennaNo) : KeptBeside a s t :=
  ⟨h.hostKept, h.strangers, fun b _ => h.records b⟩

/-- A change of one antenna record that keeps the loopback mode. -/
theorem State.mapAnt_keptBeside (s : State) (a : AntennaNo) {f : Antenna → Antenna}
    (hf : (f (s.ant a)).loopback = (s.ant a).loopback) : KeptBeside a s (s.mapAnt a f) := by
  refine ⟨⟨rfl, rfl, rfl, rfl, .refl, fun _ => rfl, fun b => ?_⟩, rfl, fun b hb => ?_⟩
  · by_cases hab : a = b
    · subst hab; rw [State.ant_mapAnt_self]; exact hf
    · rw [State.ant_mapAnt_ne _ _ hab]
  · rw [State.ant_mapAnt_ne _ _ (Ne.symm hb)]

theorem LinkWork.reportChange (l : HostLink) (a : AntennaNo) (r r' : Antenna) : LinkWork l (l.reportChange a r r') := by
  unfold HostLink.reportChange
  split
  · exact .refl
  · exact .notice (.latch .refl _ _) _

@[simp] theorem Antenna.flagged_loopback (r r' : Antenna) : (r.flagged r').loopback = r'.loopback := by
  unfold Antenna.flagged; split <;> rfl

theorem State.recordChanged_keptBeside (s : State) (a : AntennaNo) {r' : Antenna}
    (hl : r'.loopback = (s.ant a).loopback) : KeptBeside a s (s.recordChanged a r') := by
  have h := s.mapAnt_keptBeside a (f := fun r => r.flagged r') (by rw [Antenna.flagged_loopback]; exact hl)
  exact ⟨⟨rfl, rfl, rfl, rfl, .reportChange _ _ _ _, fun _ => rfl, h.loopback⟩, rfl, h.others⟩

/-- The drain test in the words of the claims (R141). -/
theorem State.drainTest_eq (s : State) (a : AntennaNo) (how : EmptiedBy) :
    s.drainTest a how =
      if (s.ant a).admin = .draining ∧ AllFree s a then
        { s with link := (s.link.reportChange a (s.ant a) { s.ant a with admin := .outOfService }).queueNotice
                   (.drainComplete a how),
                 antennas := s.antennas.set a ((s.ant a).flagged { s.ant a with admin := .outOfService }) }
      else s := by
  unfold State.drainTest
  have hc : ((s.ant a).admin == .draining && (s.ant a).allFree) = true ↔ (s.ant a).admin = .draining ∧ AllFree s a := by
    rw [Bool.and_eq_true, beq_iff_eq, s.allFree_iff]
  by_cases h : (s.ant a).admin = .draining ∧ AllFree s a
  · rw [if_pos (hc.mpr h), if_pos h, s.changeAntenna_eq a rfl]; rfl
  · rw [if_neg (mt hc.mp h), if_neg h]

theorem State.drainTest_keptBeside (s : State) (a : AntennaNo) (how : EmptiedBy) : KeptBeside a s (s.drainTest a how) := by
  rw [State.drainTest_eq]
  split
  · exact (s.recordChanged_keptBeside a (r' := { s.ant a with admin := .outOfService }) rfl).trans
      ((State.queueNotice_settled _ _).keptBeside a)
  · exact (Worked.refl s).keptBeside a

/-- A sweep leaves its slot Free at an antenna that is not open. -/
theorem State.sweepSlot_frees (ho : (s.ant a).open = false) (late : Option ContextNo) (sl : SlotNo) :
    (State.sweepSlot a late s sl).slot a sl = .free := by
  have h := (State.setSlot_settled (s := s) (a := a) (sl := sl) (v := .free) (.inr rfl))
  have ho' : ((s.setSlot a sl .free).ant a).open = false := by rw [Antenna.open_of_record (h.records a)]; exact ho
  unfold State.sweepSlot
  split
  next hs => exact hs
  next => exact (State.sweepOccupied_settled _ _ _ _).free a sl ho' (State.slot_setSlot_self _ _ _ _)
  next => exact (State.sweepReserved_settled _ _ _).free a sl ho' (State.slot_setSlot_self _ _ _ _)
  next => exact (State.afterRelease_settled _ _ _ _).free a sl ho' (State.slot_setSlot_self _ _ _ _)

theorem State.sweepSlots_free (late : Option ContextNo) (sls : List SlotNo) : ∀ s : State, (s.ant a).open = false →
    ∀ sl ∈ sls, (sls.foldl (State.sweepSlot a late) s).slot a sl = .free := by
  induction sls with
  | nil => exact fun _ _ _ h => absurd h (by simp)
  | cons sl' sls ih =>
    intro s ho sl hsl
    have ho' : ((State.sweepSlot a late s sl').ant a).open = false := by
      rw [Antenna.open_of_record ((s.sweepSlot_settled a late sl').records a)]; exact ho
    rcases List.mem_cons.mp hsl with rfl | hsl
    · exact (State.sweepSlots_settled a late sls _).free a sl ho' (State.sweepSlot_frees ho late sl)
    · exact ih _ ho' sl hsl

/-- The sweep through the slots. -/
@[irreducible] def State.sweptSlots (s : State) (a : AntennaNo) (late : Option ContextNo) : State :=
  (List.finRange 8).foldl (State.sweepSlot a late) (s.mapPort a Port.clear)

theorem State.sweptSlots_settled (s : State) (a : AntennaNo) (late : Option ContextNo) :
    Settled s (s.sweptSlots a late) := by
  unfold State.sweptSlots
  exact (s.mapPort_settled a Port.clear).trans (State.sweepSlots_settled a late _ _)

theorem State.sweptSlots_allFree (ho : (s.ant a).open = false) (late : Option ContextNo) : AllFree (s.sweptSlots a late) a := by
  intro sl
  have ho' : ((s.mapPort a Port.clear).ant a).open = false := by rw [State.ant_mapPort]; exact ho
  have h := State.sweepSlots_free late (List.finRange 8) _ ho' sl (List.mem_finRange sl)
  unfold State.sweptSlots
  exact h

/-- The sweep before its drain test. -/
def State.sweptOut (s : State) (a : AntennaNo) (late : Option ContextNo) : State :=
  (s.sweptSlots a late).mapLanes a fun _ => Vector.replicate 4 none

theorem State.closingSweep_eq (s : State) (a : AntennaNo) (late : Option ContextNo) :
    s.closingSweep a late = ((s.sweptOut a late).drainTest a .closing).beginExchange a := by
  unfold State.sweptOut State.sweptSlots; rfl

theorem State.sweptOut_ant (s : State) (a : AntennaNo) (late : Option ContextNo) :
    (s.sweptOut a late).ant a = { (s.sweptSlots a late).ant a with lanes := Vector.replicate 4 none } := by
  rw [State.sweptOut, State.mapLanes, State.ant_mapAnt_self]

theorem State.sweptOut_keptBeside (s : State) (a : AntennaNo) (late : Option ContextNo) :
    KeptBeside a s (s.sweptOut a late) := by
  rw [State.sweptOut, State.mapLanes]
  exact ((s.sweptSlots_settled a late).keptBeside a).trans (State.mapAnt_keptBeside _ _ rfl)

theorem State.sweptOut_record (s : State) (a : AntennaNo) (late : Option ContextNo) :
    ((s.sweptOut a late).ant a).record = (s.ant a).record := by
  rw [State.sweptOut_ant]
  exact (s.sweptSlots_settled a late).records a

theorem State.sweptOut_lanes (s : State) (a : AntennaNo) (late : Option ContextNo) :
    ((s.sweptOut a late).ant a).lanes = Vector.replicate 4 none := by
  rw [State.sweptOut_ant]

theorem State.sweptOut_allFree (ho : (s.ant a).open = false) (late : Option ContextNo) : AllFree (s.sweptOut a late) a := by
  intro sl
  rw [State.slot, State.sweptOut_ant]
  exact State.sweptSlots_allFree ho late sl

/-- The record of an antenna whose slots are all Free, after its drain test: the drain of a Draining one is complete (R141). -/
def Antenna.drained (r : Antenna) : Antenna :=
  { r with admin := if r.admin = .draining then .outOfService else r.admin,
           changed := r.changed || decide (r.admin = .draining) }

theorem State.drainTest_ant (hfree : AllFree s a) (how : EmptiedBy) : (s.drainTest a how).ant a = (s.ant a).drained := by
  rw [State.drainTest_eq, Antenna.drained]
  by_cases hd : (s.ant a).admin = .draining
  · rw [if_pos ⟨hd, hfree⟩, State.ant_mk, get_set_self, if_pos hd]
    unfold Antenna.flagged
    rw [if_neg (by simp [sameService, hd])]
    simp [hd]
  · rw [if_neg (fun h => hd h.1), if_neg hd]
    simp [hd]

theorem Antenna.drained_record {r r' : Antenna} (h : r'.record = r.record) : r'.drained.record = r.drained.record := by
  simp only [Antenna.record, Prod.mk.injEq] at h
  simp only [Antenna.record, Antenna.drained, h]

theorem Antenna.drained_carrying {r : Antenna} (h : r.carrying = false) : r.drained.carrying = false := by
  unfold Antenna.carrying Antenna.drained at *
  cases hadm : r.admin <;> simp_all

theorem State.closingSweep_antenna (ho : (s.ant a).open = false) (late : Option ContextNo) :
    (s.closingSweep a late).ant a = ((s.sweptOut a late).ant a).drained := by
  rw [State.closingSweep_eq, State.beginExchange, State.ant_mapPort, State.drainTest_ant (State.sweptOut_allFree ho late)]

/-- The closing sweep of an antenna that is not carrying: its record, its slots and its lanes. -/
theorem State.closingSweep_ant (hc : (s.ant a).carrying = false) (late : Option ContextNo) :
    Closed (s.closingSweep a late) a ∧ ((s.closingSweep a late).ant a).record = (s.ant a).drained.record := by
  have ho : (s.ant a).open = false := by simp [Antenna.open, hc]
  have hant := State.closingSweep_antenna ho late
  have hrec : ((s.closingSweep a late).ant a).record = (s.ant a).drained.record := by
    rw [hant]; exact Antenna.drained_record (s.sweptOut_record a late)
  refine ⟨⟨?_, fun sl => ?_, fun i => ?_⟩, hrec⟩
  · rw [Antenna.carrying_of_record hrec]
    exact Antenna.drained_carrying hc
  · rw [State.slot, hant]; exact State.sweptOut_allFree ho late sl
  · rw [hant]
    show ((s.sweptOut a late).ant a).lanes.get i = none
    rw [State.sweptOut_lanes]; exact get_replicate _ i

theorem State.closingSweep_keptBeside (s : State) (a : AntennaNo) (late : Option ContextNo) :
    KeptBeside a s (s.closingSweep a late) := by
  rw [State.closingSweep_eq]
  exact ((s.sweptOut_keptBeside a late).trans (State.drainTest_keptBeside _ a _)).trans
    ((State.beginExchange_settled _ a).keptBeside a)

/-- A closed antenna stays closed while the part settles. -/
theorem Closed.settled (h : Closed s a) (ht : Settled s t) : Closed t a := by
  have ho : (s.ant a).open = false := by simp [Antenna.open, h.carrying]
  exact ⟨by rw [Antenna.carrying_of_record (ht.records a)]; exact h.carrying, fun sl => ht.free a sl ho (h.slots sl),
    fun i => by rw [ht.lanes a ho]; exact h.lanes i⟩

end Sys2Proof.Machine
end

section
/-! The commands of the trunk and the antennas: Trunk Start (R27), Trunk Stop (R145 to R147), Read Antenna (R42), the In service, Drain and Force out actions (R35, R36, R38), Clear Antenna Fault (R33), Set Port Loopback (R39). -/

namespace Sys2Proof.Machine

variable {s t u : State} {a : AntennaNo} {code : Byte}

/-! ### Trunk Start (R27) -/

/-- A port at Trunk Start, where its record and the policy are those of `s`. -/
def State.startedPort (s : State) (a : AntennaNo) : Port :=
  ((s.port a).startProbing s.probeInterval).begin s.running (s.ant a).loopback s.orderTimeout

theorem State.startPort_eq (s : State) (a : AntennaNo) :
    s.startPort a = { s with ports := s.ports.set a (s.startedPort a) } := by
  unfold State.startPort
  rw [State.beginExchange_eq, State.port_mapPort_self]
  simp only [State.mapPort, set_set]
  rfl

/-- The ports after Trunk Start has gone through a list of them. -/
theorem State.startPorts_eq (as : List AntennaNo) : ∀ s : State, as.Nodup →
    as.foldl State.startPort s = { s with ports := (as.foldl State.startPort s).ports } ∧
      ∀ a, (as.foldl State.startPort s).port a = if a ∈ as then s.startedPort a else s.port a := by
  induction as with
  | nil => exact fun s _ => ⟨rfl, fun a => by simp⟩
  | cons b as ih =>
    intro s hn
    obtain ⟨hb, hn⟩ := List.nodup_cons.mp hn
    obtain ⟨h1, h2⟩ := ih (s.startPort b) hn
    rw [List.foldl_cons]
    refine ⟨?_, fun a => ?_⟩
    · rw [h1, State.startPort_eq]
    · rw [h2 a]
      by_cases hab : b = a
      · subst hab
        rw [if_neg hb, if_pos (List.mem_cons_self ..), State.startPort_eq]
        exact get_set_self _ _ _
      · have hport : (s.startPort b).port a = s.port a := by rw [State.startPort_eq]; exact get_set_ne _ _ hab
        have hstarted : (s.startPort b).startedPort a = s.startedPort a := by
          simp only [State.startedPort, hport]
          rw [State.startPort_eq]; rfl
        rw [hport, hstarted]
        simp [Ne.symm hab]

theorem get_map {α β : Type} {n : Nat} (v : Vector α n) (f : α → β) (i : Fin n) : (v.map f).get i = f (v.get i) := by
  simp [Vector.get]

/-- Settles O14: a trunk that runs, and one that is stopped, whose ports are started in number order. -/
theorem trunkStartBeginsToProbe : Obligations.TrunkStartBeginsToProbe := by
  intro s h
  cases hrun : s.running with
  | true =>
    obtain ⟨t, ht, hr⟩ := hostCommand_refused (body := trunkStartBody) (code := 0x10) (r := .state) h (by
      unfold trunkStartBody; exact if_pos hrun)
    exact ⟨t, ht, fun _ => hr, nofun⟩
  | false =>
    let v : State := { s.atWork 0x10 with
      running := true, antennas := s.antennas.map fun r => { r with probeMisses := 0, orderMisses := 0 } }
    have hbody : trunkStartBody (s.atWork 0x10) = .answer [] ((List.finRange 24).foldl State.startPort v) := by
      unfold trunkStartBody
      exact if_neg (by rw [show (s.atWork 0x10).running = s.running from rfl, hrun]; decide)
    obtain ⟨hv, hports⟩ := State.startPorts_eq (List.finRange 24) v (List.nodup_finRange 24)
    rw [hv] at hbody
    obtain ⟨t, ht, hdone, hrest⟩ := hostCommand_done h hbody ((State.atWork_atWork h).of_link rfl)
    refine ⟨t, ht, nofun, fun _ => ⟨hdone.woken, by rw [hrest], fun a => ?_, fun a hf => ?_, ?_⟩⟩
    · rw [hrest]; exact get_map _ _ a
    · have hp : t.port a = v.startedPort a := by rw [hrest]; exact (hports a).trans (if_pos (by simp))
      have hv : v.ant a = { s.ant a with probeMisses := 0, orderMisses := 0 } := get_map _ _ a
      have hmode : (v.ant a).loopback = (s.ant a).loopback := by rw [hv]
      rw [hp, State.startedPort, hmode, Port.begin_probe (by exact hf) rfl]
      rw [responderReply_eq]; rfl
    · rw [hrest]

/-! ### Trunk Stop (R145 to R147) -/

/-- Settles O15: a trunk that is stopped, and one that runs, which everything is cleared of. -/
theorem trunkStopClearsTheTrunk : Obligations.TrunkStopClearsTheTrunk := by
  intro s h
  cases hrun : s.running with
  | false =>
    obtain ⟨t, ht, hr⟩ := hostCommand_refused (body := trunkStopBody) (code := 0x11) (r := .state) h (by
      unfold trunkStopBody; exact if_pos (by rw [show (s.wake.accept 0x11).running = s.running from rfl, hrun]; rfl))
    exact ⟨t, ht, fun _ => hr, nofun⟩
  | true =>
    have hbody : trunkStopBody (s.atWork 0x11) = .answer [] ((s.atWork 0x11).stopTrunk.queueNotice
        (.trunkStopped s.attachedCount s.busyContexts)) := by
      unfold trunkStopBody
      exact if_neg (by rw [show (s.atWork 0x11).running = s.running from rfl, hrun]; decide)
    rw [State.attachedCount_eq, State.busyContexts_eq] at hbody
    obtain ⟨t, ht, hdone, hrest⟩ := hostCommand_done h hbody
      (((State.atWork_atWork h).of_link (u := (s.atWork 0x11).stopTrunk) rfl).queueNotice _)
    have hant : ∀ a, t.ant a = (s.ant a).stop := fun a => by rw [hrest]; exact get_map _ _ a
    refine ⟨t, ht, nofun, fun _ => ⟨hdone, by rw [hrest]; rfl, by rw [hrest]; rfl, fun c => ?_, fun a => ?_, fun a => ?_,
      fun a => ⟨fun sl => ?_, fun i => ?_⟩, fun e => ?_, ?_⟩⟩
    · rw [hrest]; exact get_map _ _ c
    · rw [hrest]; exact get_map _ _ a
    · rw [hant a]; rfl
    · rw [State.slot, hant a]; exact get_replicate _ sl
    · rw [hant a]; exact get_replicate _ i
    · rw [hrest]; exact get_map _ _ e
    · rw [hrest]; rfl

/-! ### Read Antenna (R42) -/

theorem flagBits4_spec (p q r w : Bool) :
    (flagBits [p, q, r, w]).getLsbD 0 = p ∧ (flagBits [p, q, r, w]).getLsbD 1 = q ∧
      (flagBits [p, q, r, w]).getLsbD 2 = r ∧ (flagBits [p, q, r, w]).getLsbD 3 = w ∧
      (flagBits [p, q, r, w]).toNat < 16 := by
  revert p q r w; decide

theorem Antenna.carrying_iff (r : Antenna) : r.carrying = true ↔ r.link = .serveCapable ∧ r.fault = false ∧
    (r.admin = .inService ∨ r.admin = .draining) := by
  unfold Antenna.carrying
  cases r.admin <;> simp

theorem Antenna.open_iff (r : Antenna) :
    r.open = true ↔ r.link = .serveCapable ∧ r.fault = false ∧ r.admin = .inService := by
  rw [Antenna.open_eq, decide_eq_true_iff]

theorem LinkState.byte_code (l : LinkState) :
    byte l.code = match l with | .absent => 0 | .listenOnly => 1 | .serveCapable => 2 := by cases l <;> rfl

theorem AdminState.byte_code (m : AdminState) :
    byte m.code = match m with | .inService => 0 | .draining => 1 | .outOfService => 2 := by cases m <;> rfl

theorem LoopbackMode.byte_code (m : LoopbackMode) :
    byte m.code = match m with | .off => 0 | .ackAll => 1 | .refuseReserves => 2 | .silent => 3 := by cases m <;> rfl

theorem Slot.bytes_eq : Slot.bytes = fun v => match v with
    | .free => [0, 0xFF] | .reserved e => [1, byte e] | .occupied e => [2, byte e] | .releasing e => [3, byte e] := by
  funext v; cases v <;> rfl

theorem laneBytes_eq : laneBytes = fun v => match v with
    | none => [0, 0] | some l => [byte l.group, byte l.users] := by
  funext v; cases v <;> rfl

/-- Settles O16: the 33 bytes in the words of 12.5, and the change flag cleared. -/
theorem readAntennaAnswersItsRecord : Obligations.ReadAntennaAnswersItsRecord := by
  intro s a h
  have hbody : readAntennaBody (byte a) (s.atWork 0x12) = .answer ((s.atWork 0x12).antennaBytes a)
      ((s.atWork 0x12).mapAnt a fun r => { r with changed := false }) := by
    rw [readAntennaBody, withAntenna_byte]
  obtain ⟨t, ht, hdone, hrest⟩ := hostCommand_done h hbody ((State.atWork_atWork h).of_link rfl)
  refine ⟨t, flagBits [(s.ant a).carrying, (s.ant a).open, (s.ant a).changed, (s.port a).inFlight.isSome], ht, ?_,
    flagBits4_spec _ _ _ _, hrest, Antenna.carrying_iff _, Antenna.open_iff _⟩
  have hbytes : (s.atWork 0x12).antennaBytes a = s.antennaBytes a := rfl
  rw [hbytes] at hdone
  have hdone := hdone.woken
  simp only [State.antennaBytes, toList_eq_map, List.flatMap_map, LinkState.byte_code, AdminState.byte_code,
    LoopbackMode.byte_code, flagByte, Slot.bytes_eq, laneBytes_eq] at hdone
  exact hdone

/-! ### In service, Drain, Clear Antenna Fault (R33, R35, R36) -/

/-- A body that answers, changes one antenna record, and queues one notice more. -/
theorem hostCommand_antennaUpdated_notice {body : State → CommandReply} {p : List Byte} {f : Antenna → Antenna}
    {n : Notice} (h : s.link.execution = none) (hf : (f (s.ant a)).changed = (s.ant a).changed)
    (hb : body (s.atWork code) = .answer p (((s.atWork code).changeAntenna a f).queueNotice n)) :
    ∃ t, hostCommand code body s = .next t ∧ AntennaUpdated s t code p a (f (s.ant a)) [n] := by
  rw [(s.atWork code).changeAntenna_eq a hf] at hb
  obtain ⟨t, ht, hdone, hrest⟩ := hostCommand_done h hb
    (((State.atWork_atWork h).recordChanged a (f (s.ant a))).queueNotice n)
  exact ⟨t, ht, hdone, hrest⟩

theorem serviceAnswer_eq {k : AdminState} (h : (s.ant a).admin = k) : serviceAnswer a s = .answer [byte k.code] s := by
  rw [serviceAnswer, h]

theorem inServiceBody_byte (s : State) (a : AntennaNo) :
    inServiceBody (byte a) s = .answer [0] (s.changeAntenna a fun r => { r with admin := .inService }) := by
  rw [inServiceBody, withAntenna_byte]
  exact serviceAnswer_eq (s.changeAntenna_admin a rfl)

theorem drainBody_refused (ho : (s.ant a).admin = .outOfService) : drainBody (byte a) s = .refuse .state := by
  rw [drainBody, withAntenna_byte, ho]

theorem drainBody_allFree (ho : (s.ant a).admin ≠ .outOfService) (hfree : AllFree s a) :
    drainBody (byte a) s = .answer [2] ((s.changeAntenna a fun r => { r with admin := .outOfService }).queueNotice
      (.drainComplete a .moves)) := by
  have hadmin : ((s.drainAtOnce a).ant a).admin = .outOfService := by
    rw [State.drainAtOnce, State.ant_queueNotice]; exact s.changeAntenna_admin a rfl
  rw [drainBody, withAntenna_byte, (s.allFree_iff a).mpr hfree]
  cases hk : (s.ant a).admin with
  | outOfService => exact absurd hk ho
  | inService => exact serviceAnswer_eq hadmin
  | draining => exact serviceAnswer_eq hadmin

theorem drainBody_held (ho : (s.ant a).admin ≠ .outOfService) (hheld : ¬ AllFree s a) :
    drainBody (byte a) s = .answer [1] (s.changeAntenna a fun r => { r with admin := .draining }) := by
  have hadmin : ((s.changeAntenna a fun r => { r with admin := .draining }).ant a).admin = .draining :=
    s.changeAntenna_admin a rfl
  have hfree : (s.ant a).allFree = false := by
    rw [← Bool.not_eq_true]; exact mt (s.allFree_iff a).mp hheld
  rw [drainBody, withAntenna_byte, hfree]
  cases hk : (s.ant a).admin with
  | outOfService => exact absurd hk ho
  | inService => exact serviceAnswer_eq hadmin
  | draining => exact serviceAnswer_eq hadmin

theorem clearAntennaFaultBody_refused (hl : (s.ant a).link ≠ .serveCapable) :
    clearAntennaFaultBody (byte a) s = .refuse .state := by
  rw [clearAntennaFaultBody, withAntenna_byte, if_pos hl]

theorem clearAntennaFaultBody_set (hl : (s.ant a).link = .serveCapable) (hf : (s.ant a).fault = true) :
    clearAntennaFaultBody (byte a) s =
      .answer [] (s.changeAntenna a fun r => { r with fault := false, orderMisses := 0 }) := by
  rw [clearAntennaFaultBody, withAntenna_byte, if_neg (fun h => h hl), if_pos hf]

theorem clearAntennaFaultBody_clear (hl : (s.ant a).link = .serveCapable) (hf : (s.ant a).fault = false) :
    clearAntennaFaultBody (byte a) s = .answer [] s := by
  rw [clearAntennaFaultBody, withAntenna_byte, if_neg (fun h => h hl), if_neg (by rw [hf]; decide)]

theorem drainAction_cases (h : s.link.execution = none) (a : AntennaNo) :
    ∃ t, exec (.drainAction (byte a)) s = .next t ∧
      ((s.ant a).admin = .outOfService → Refused s t 0x13 .state) ∧
      ((s.ant a).admin ≠ .outOfService → AllFree s a →
        AntennaUpdated s t 0x13 [2] a { s.ant a with admin := .outOfService } [.drainComplete a .moves]) ∧
      ((s.ant a).admin ≠ .outOfService → ¬ AllFree s a →
        AntennaUpdated s t 0x13 [1] a { s.ant a with admin := .draining } []) := by
  by_cases ho : (s.ant a).admin = .outOfService
  · obtain ⟨t, ht, hr⟩ := hostCommand_refused h (drainBody_refused (s := s.atWork 0x13) ho)
    exact ⟨t, ht, fun _ => hr, fun hn => absurd ho hn, fun hn => absurd ho hn⟩
  by_cases hfree : AllFree s a
  · obtain ⟨t, ht, hup⟩ := hostCommand_antennaUpdated_notice h rfl (drainBody_allFree (s := s.atWork 0x13) ho hfree)
    exact ⟨t, ht, fun hn => absurd hn ho, fun _ _ => hup, fun _ hn => absurd hfree hn⟩
  · obtain ⟨t, ht, hup⟩ := hostCommand_antennaUpdated h rfl (drainBody_held (s := s.atWork 0x13) ho hfree)
    exact ⟨t, ht, fun hn => absurd hn ho, fun _ hn => absurd hn hfree, fun _ _ => hup⟩

theorem clearAntennaFault_cases (h : s.link.execution = none) (a : AntennaNo) :
    ∃ t, exec (.clearAntennaFault (byte a)) s = .next t ∧
      ((s.ant a).link ≠ .serveCapable → Refused s t 0x14 .state) ∧
      ((s.ant a).link = .serveCapable → (s.ant a).fault = true →
        AntennaUpdated s t 0x14 [] a { s.ant a with fault := false, orderMisses := 0 } []) ∧
      ((s.ant a).link = .serveCapable → (s.ant a).fault = false → Told s t 0x14 []) := by
  by_cases hl : (s.ant a).link = .serveCapable
  · cases hf : (s.ant a).fault with
    | true =>
      obtain ⟨t, ht, hup⟩ := hostCommand_antennaUpdated h rfl (clearAntennaFaultBody_set (s := s.atWork 0x14) hl hf)
      exact ⟨t, ht, fun hn => absurd hl hn, fun _ _ => hup, fun _ hn => by cases hn⟩
    | false =>
      obtain ⟨t, ht, htold⟩ := hostCommand_told h (clearAntennaFaultBody_clear (s := s.atWork 0x14) hl hf)
      exact ⟨t, ht, fun hn => absurd hl hn, fun _ hn => (by cases hn), fun _ _ => htold⟩
  · obtain ⟨t, ht, hr⟩ := hostCommand_refused h (clearAntennaFaultBody_refused (s := s.atWork 0x14) hl)
    exact ⟨t, ht, fun _ => hr, fun hn => absurd hn hl, fun hn => absurd hn hl⟩

/-- Settles O17, action by action. -/
theorem antennaActionsSetTheirFields : Obligations.AntennaActionsSetTheirFields := fun s a h =>
  ⟨hostCommand_antennaUpdated h rfl (inServiceBody_byte (s.atWork 0x13) a), drainAction_cases h a,
    clearAntennaFault_cases h a⟩

/-! ### Force out (R38) -/

/-- A body that answers over a state that the dispatch has settled. -/
theorem hostCommand_doneThen {body : State → CommandReply} {p : List Byte} (h : s.link.execution = none)
    (hb : body (s.atWork code) = .answer p u.settle) (hw : LinkWork (s.atWork code).link u.link) :
    ∃ t, hostCommand code body s = .next t ∧ DoneThen s t code p u := by
  have hsettle := (State.atWork_atWork h).linkWork (hw.trans u.settle_settled.link)
  obtain ⟨t, ht, hdone, hrest⟩ := hostCommand_done h hb hsettle
  exact ⟨t, ht, hdone.reply, hdone.link, hrest⟩

theorem State.recordChanged_record (s : State) (a : AntennaNo) (r' : Antenna) :
    ((s.recordChanged a r').ant a) = (s.ant a).flagged r' := get_set_self _ _ _

/-- The fields that the change flag leaves alone. -/
theorem Antenna.flagged_fields (r r' : Antenna) :
    (r.flagged r').link = r'.link ∧ (r.flagged r').fault = r'.fault ∧ (r.flagged r').admin = r'.admin ∧
      (r.flagged r').loopback = r'.loopback ∧ (r.flagged r').probeMisses = r'.probeMisses ∧
      (r.flagged r').orderMisses = r'.orderMisses ∧ (r.flagged r').carrying = r'.carrying := by
  unfold Antenna.flagged
  split <;> exact ⟨rfl, rfl, rfl, rfl, rfl, rfl, rfl⟩

/-- A change that ends carrying sets the change flag. -/
theorem Antenna.flagged_closes {r r' : Antenna} (h : r.carrying = true) (h' : r'.carrying = false) :
    (r.flagged r').changed = true := by
  unfold Antenna.flagged
  rw [if_neg]
  rintro ⟨hl, hf, ha, -⟩
  simp only [Antenna.carrying, hl, hf, ha] at h h'
  rw [h] at h'
  cases h'

theorem sameService_of_record {r r' : Antenna} (h : r'.record = r.record) : sameService r r' ∧ r'.changed = r.changed := by
  simp only [Antenna.record, Prod.mk.injEq] at h
  obtain ⟨hl, hf, ha, hb, hc, -, -⟩ := h
  exact ⟨⟨hl, hf, ha, hb⟩, hc⟩

/-- A state that rests stays as it is. -/
theorem State.settle_rested (h : Rested s) : s.settle = s := by
  have hone : s.dispatchOne = none := by
    unfold State.dispatchOne
    rcases h with h | h
    · have : s.lowestContext = none := by
        rw [State.lowestContext, find_finRange_eq_none]
        exact fun c => by simpa using Option.ne_none_iff_isSome.mp (h c)
      rw [this]
    · have : s.firstReady = none := by
        rw [State.firstReady, List.find?_eq_none]
        exact fun r hr => by simpa using h r hr
      rw [this]
      split <;> simp_all
  rw [State.settle, State.dispatchLoop, hone]

theorem forceOutBody_already (ho : (s.ant a).admin = .outOfService) : forceOutBody (byte a) s = .answer [2] s := by
  rw [forceOutBody, withAntenna_byte, if_pos ho]; exact serviceAnswer_eq ho

/-- The record of an antenna that is put Out of service. -/
abbrev Antenna.outOfService (r : Antenna) : Antenna := { r with admin := .outOfService }

theorem Antenna.outOfService_carrying (r : Antenna) : r.outOfService.carrying = false := by
  simp [Antenna.carrying]

theorem forceOutBody_idle (ho : (s.ant a).admin ≠ .outOfService) (hc : (s.ant a).carrying = false) :
    forceOutBody (byte a) s = .answer [2] (s.recordChanged a (s.ant a).outOfService).settle := by
  rw [forceOutBody, withAntenna_byte, if_neg ho, s.changeAndSweep_eq a none rfl, if_neg (by rw [hc]; simp)]
  refine serviceAnswer_eq (k := .outOfService) ?_
  have hr := (State.settle_settled (s.recordChanged a (s.ant a).outOfService)).records a
  rw [(sameService_of_record hr).1.2.2.1, State.recordChanged_record]
  exact (Antenna.flagged_fields _ _).2.2.1

theorem State.closesOut_ant (hc : (s.ant a).carrying = true) (late : Option ContextNo) {r' : Antenna}
    (hc' : r'.carrying = false) (hs : Settled ((s.recordChanged a r').closingSweep a late) t) :
    Closed t a ∧ (t.ant a).link = r'.link ∧ (t.ant a).fault = r'.fault ∧ (t.ant a).loopback = r'.loopback ∧
      (t.ant a).changed = true ∧ (t.ant a).probeMisses = r'.probeMisses ∧ (t.ant a).orderMisses = r'.orderMisses ∧
      (t.ant a).admin = (if r'.admin = .draining then .outOfService else r'.admin) := by
  obtain ⟨hl, hf, ha, hb, hp, ho, hcar⟩ := Antenna.flagged_fields (s.ant a) r'
  have hant := s.recordChanged_record a r'
  obtain ⟨hclosed, hrec⟩ := State.closingSweep_ant (s := s.recordChanged a r') (a := a) (by rw [hant, hcar]; exact hc') late
  have hrec := (hs.records a).trans hrec
  rw [hant] at hrec
  simp only [Antenna.record, Antenna.drained, Prod.mk.injEq, hl, hf, ha, hb, hp, ho, Antenna.flagged_closes hc hc', Bool.true_or] at hrec
  obtain ⟨h1, h2, h3, h4, h5, h6, h7⟩ := hrec
  exact ⟨hclosed.settled hs, h1, h2, h4, h5, h6, h7, h3⟩

theorem forceOutBody_carrying (hc : (s.ant a).carrying = true) :
    forceOutBody (byte a) s = .answer [2] ((s.recordChanged a (s.ant a).outOfService).closingSweep a none).settle := by
  have ho : (s.ant a).admin ≠ .outOfService := by
    intro ho; simp [Antenna.carrying, ho] at hc
  rw [forceOutBody, withAntenna_byte, if_neg ho, s.changeAndSweep_eq a none rfl,
    if_pos ⟨hc, Antenna.outOfService_carrying _⟩]
  refine serviceAnswer_eq (k := .outOfService) ?_
  have h := State.closesOut_ant hc none (Antenna.outOfService_carrying (s.ant a)) (State.settle_settled _)
  exact h.2.2.2.2.2.2.2

theorem DoneThen.told_updated {p : List Byte} {r' : Antenna}
    (h : DoneThen s t code p ((s.atWork code).recordChanged a r')) (hr : Rested s) :
    AntennaUpdated s t code p a r' [] := by
  have hs : ((s.atWork code).recordChanged a r').settle = (s.atWork code).recordChanged a r' :=
    State.settle_rested (by exact hr)
  obtain ⟨h1, h2, h3⟩ := h
  rw [hs] at h2 h3
  exact ⟨⟨h1, h2⟩, h3⟩

/-- Settles O19: an antenna already Out of service, one that was not carrying, and one that the sweep closes. -/
theorem forceOutTakesOutOfService : Obligations.ForceOutTakesOutOfService := by
  intro s a h
  have hwork : LinkWork (s.atWork 0x13).link ((s.atWork 0x13).recordChanged a (s.ant a).outOfService).link :=
    .reportChange _ _ _ _
  by_cases ho : (s.ant a).admin = .outOfService
  · obtain ⟨t, ht, htold⟩ := hostCommand_told h (forceOutBody_already (s := s.atWork 0x13) ho)
    exact ⟨t, ht, fun _ => htold, fun hn => absurd ho hn, ⟨fun hn => absurd ho hn, fun hn => absurd ho hn⟩,
      fun hn => absurd ho hn⟩
  cases hc : (s.ant a).carrying with
  | false =>
    obtain ⟨t, ht, hdone⟩ := hostCommand_doneThen h (forceOutBody_idle (s := s.atWork 0x13) ho hc) hwork
    exact ⟨t, ht, fun hn => absurd hn ho, fun _ _ hr => hdone.told_updated hr, ⟨fun _ _ => hdone, fun _ hn => by cases hn⟩,
      fun _ hn => by cases hn⟩
  | true =>
    have hk := State.closingSweep_keptBeside ((s.atWork 0x13).recordChanged a (s.ant a).outOfService) a none
    have hbody : forceOutBody (byte a) (s.atWork 0x13) =
        .answer [2] (((s.atWork 0x13).recordChanged a (s.ant a).outOfService).closingSweep a none).settle :=
      forceOutBody_carrying hc
    obtain ⟨t, ht, hdone⟩ := hostCommand_doneThen h hbody (hwork.trans hk.link)
    refine ⟨t, ht, fun hn => absurd hn ho, fun _ hn => (by cases hn), ⟨fun _ hn => (by cases hn), fun _ _ => hdone⟩,
      fun _ _ => ?_⟩
    obtain ⟨hreply, hlink, hrest⟩ := hdone
    have hall := (((s.atWork 0x13).recordChanged_keptBeside a (r' := (s.ant a).outOfService) rfl).trans hk).trans
      ((State.settle_settled _).keptBeside a)
    obtain ⟨hclosed, hl, hf, hb, hch, -, -, hadm⟩ :=
      State.closesOut_ant (s := s.atWork 0x13) (r' := (s.ant a).outOfService) hc none
        (Antenna.outOfService_carrying (s.ant a)) (State.settle_settled _)
    generalize (((s.atWork 0x13).recordChanged a (s.ant a).outOfService).closingSweep a none).settle = u at *
    have hant : ∀ b, t.ant b = u.ant b := fun b => by rw [hrest]; rfl
    obtain ⟨hrate, hmode, hsel, -⟩ := hall.link.settings
    refine ⟨hreply, ⟨by rw [hant]; exact hclosed.carrying, fun sl => by rw [State.slot, hant]; exact hclosed.slots sl,
      fun i => by rw [hant]; exact hclosed.lanes i⟩, by rw [hant]; exact hadm, by rw [hant]; exact hch,
      by rw [hant]; exact hl, by rw [hant]; exact hf, by rw [hant]; exact hb, fun b hb => ?_, ?_, ?_, ?_, ?_, ?_, ?_⟩
    · rw [hant]; exact sameService_of_record (hall.others b hb)
    · rw [hrest]; exact hall.policy
    · rw [hrest]; exact hall.strangers
    · rw [hrest]; exact hall.running
    · rw [hrest]; exact hall.pending
    · exact hlink.mode.trans (hmode.trans (s.atWork_mode 0x13))
    · exact hlink.selection.trans (hsel.trans (s.atWork_selection 0x13))

/-! ### Set Port Loopback (R39) -/

theorem loopbackMode?_none {b : Byte} (h : 4 ≤ b.toNat) : loopbackMode? b = none := by
  unfold loopbackMode?
  split <;> first | omega | rfl

/-- The mode byte of a loopback mode. -/
theorem loopbackMode?_byte (m : LoopbackMode) :
    loopbackMode? (match m with | .off => 0 | .ackAll => 1 | .refuseReserves => 2 | .silent => 3) = some m := by
  cases m <;> rfl

/-- A new mode ends carrying exactly where loopback begins or ends. -/
theorem Antenna.withLoopback_carrying (r : Antenna) (m : LoopbackMode) :
    (r.withLoopback m).carrying = (r.carrying && !decide (r.loopback = .off ∨ m = .off)) := by
  unfold Antenna.withLoopback Antenna.carrying
  by_cases h : r.loopback = .off ∨ m = .off <;> simp [h]

theorem State.setLoopback_eq {m : LoopbackMode} (hm : (s.ant a).loopback ≠ m) :
    let closes : Prop := (s.ant a).carrying = true ∧ ((s.ant a).loopback = .off ∨ m = .off)
    s.setLoopback a m =
      { s with
        link := s.link.reportChange a (s.ant a) ((s.ant a).withLoopback m),
        antennas := s.antennas.set a { (s.ant a).withLoopback m with
          changed := true, lanes := if closes then Vector.replicate 4 none else (s.ant a).lanes },
        ports := s.ports.set a { s.port a with
          receiver := .hunting,
          fifo := if closes then [] else (s.port a).fifo,
          waiting := if closes then [] else (s.port a).waiting,
          inFlight := if closes ∨ (s.port a).probeInFlight = true then none else (s.port a).inFlight } } := by
  intro closes
  have hflag : (s.ant a).flagged ((s.ant a).withLoopback m) = { (s.ant a).withLoopback m with changed := true } := by
    unfold Antenna.flagged
    rw [if_neg]
    exact fun h => hm h.2.2.2.symm
  unfold State.setLoopback
  simp only [s.changeAntenna_eq a (f := (·.withLoopback m)) rfl, hflag]
  have hcar : (({ s with
      antennas := s.antennas.set a { (s.ant a).withLoopback m with changed := true },
      link := s.link.reportChange a (s.ant a) ((s.ant a).withLoopback m) } : State).mapPort a Port.withLoopback).ant a =
      { (s.ant a).withLoopback m with changed := true } := get_set_self _ _ _
  rw [hcar]
  have hcar' : ({ (s.ant a).withLoopback m with changed := true } : Antenna).carrying =
      ((s.ant a).carrying && !decide ((s.ant a).loopback = .off ∨ m = .off)) := (s.ant a).withLoopback_carrying m
  rw [hcar']
  by_cases hcl : closes
  · rw [if_pos (by obtain ⟨h1, h2⟩ := hcl; simp [h1, h2])]
    simp only [if_pos hcl, if_pos (Or.inl hcl : closes ∨ (s.port a).probeInFlight = true)]
    simp only [State.mapLanes, State.mapAnt, State.mapPort, set_set, State.ant_mk, State.port_mk, get_set_self]
    rfl
  · rw [if_neg (by
      intro hn
      apply hcl
      simp only [Bool.and_eq_true, Bool.not_eq_true', Bool.and_eq_false_iff, Bool.not_eq_false', decide_eq_true_eq] at hn
      exact ⟨hn.1, hn.2.resolve_left (by rw [hn.1]; decide)⟩)]
    have hor : (closes ∨ (s.port a).probeInFlight = true) ↔ (s.port a).probeInFlight = true := by simp [hcl]
    simp only [if_neg hcl, hor]
    rfl

theorem setPortLoopbackBody_byte (s : State) (a : AntennaNo) (b : Byte) :
    setPortLoopbackBody (byte a) b s =
      match loopbackMode? b with
      | none => .refuse .badValue
      | some m =>
        if !(s.ant a).allFree then .refuse .state
        else if (s.ant a).loopback = m then .answer [] s
        else .answer [] (s.setLoopback a m) := by
  rw [setPortLoopbackBody, withAntenna_byte] <;> rfl

theorem LoopbackMode.of_byte {b : Byte} (h : b.toNat < 4) : ∃ m : LoopbackMode,
    b = match m with | .off => 0 | .ackAll => 1 | .refuseReserves => 2 | .silent => 3 := by
  have : b = 0 ∨ b = 1 ∨ b = 2 ∨ b = 3 := by bv_omega
  rcases this with rfl | rfl | rfl | rfl
  exacts [⟨.off, rfl⟩, ⟨.ackAll, rfl⟩, ⟨.refuseReserves, rfl⟩, ⟨.silent, rfl⟩]

/-- Settles O20: a mode byte out of range, a slot that is not Free, the mode already set, and a new mode. -/
theorem setPortLoopbackSetsTheMode : Obligations.SetPortLoopbackSetsTheMode := by
  intro s a b h
  have hbody := setPortLoopbackBody_byte (s.atWork 0x15) a b
  by_cases hb : 4 ≤ b.toNat
  · rw [loopbackMode?_none hb] at hbody
    obtain ⟨t, ht, hr⟩ := hostCommand_refused h hbody
    refine ⟨t, ht, fun _ => hr, fun m hm => ?_⟩
    exfalso; subst hm; cases m <;> exact absurd hb (by decide)
  obtain ⟨m, hm⟩ := LoopbackMode.of_byte (by omega : b.toNat < 4)
  have hmode : loopbackMode? b = some m := by rw [hm]; exact loopbackMode?_byte m
  rw [hmode] at hbody
  have huniq : ∀ m' : LoopbackMode,
      b = (match m' with | .off => 0 | .ackAll => 1 | .refuseReserves => 2 | .silent => 3) → m' = m := by
    intro m' hm'
    have := loopbackMode?_byte m'
    rw [← hm', hmode] at this
    exact (Option.some.inj this).symm
  simp only at hbody
  by_cases hfree : AllFree s a
  case neg =>
    rw [if_pos (by simpa using mt ((s.atWork 0x15).allFree_iff a).mp hfree)] at hbody
    obtain ⟨t, ht, hr⟩ := hostCommand_refused h hbody
    exact ⟨t, ht, fun hn => absurd hn hb, fun m' _ => ⟨fun _ => hr, fun hn => absurd hn hfree, fun hn => absurd hn hfree⟩⟩
  rw [if_neg (by simpa using ((s.atWork 0x15).allFree_iff a).mpr hfree)] at hbody
  by_cases hsame : (s.ant a).loopback = m
  · rw [if_pos (by exact hsame)] at hbody
    obtain ⟨t, ht, htold⟩ := hostCommand_told h hbody
    refine ⟨t, ht, fun hn => absurd hn hb, fun m' hm' => ⟨fun hn => absurd hfree hn, fun _ _ => htold, fun _ hn => ?_⟩⟩
    rw [huniq m' hm'] at hn; exact absurd hsame hn
  · rw [if_neg (by exact hsame), State.setLoopback_eq (by exact hsame)] at hbody
    obtain ⟨t, ht, hdone, hrest⟩ := hostCommand_done h hbody
      ((State.atWork_atWork h).linkWork (.reportChange _ a (s.ant a) ((s.ant a).withLoopback m)))
    refine ⟨t, ht, fun hn => absurd hn hb, fun m' hm' => ?_⟩
    obtain rfl := huniq m' hm'
    exact ⟨fun hn => absurd hfree hn, fun _ hn => absurd hn hsame, fun _ _ => ⟨hdone, by rw [hrest]; rfl, by rw [hrest]; rfl,
      by rw [hrest]⟩⟩

end Sys2Proof.Machine
end

section
/-! The commands about beltpacks (chapter 2, R111, R130 to R132, R178) and the reads of beltpacks (R6, R22). -/

namespace Sys2Proof.Machine

variable {s t u : State} {ref : BeltpackRef} {e : EntryNo} {x : Entry} {c : ContextNo} {a : AntennaNo}
  {sl : SlotNo} {code : Byte} {p : List Byte}

/-! ### The checks of a command that names a beltpack (R3) -/

section
variable {α : Type} {values : Option α} {held : Bool} {k : EntryNo → Entry → α → State → CommandReply} {r : RefusalCode}
  {v : α}

theorem Named.atWork (h : Named s ref e x) (code : Byte) : Named (s.atWork code) ref e x := h.of_roster rfl

/-- A command that changes nothing of the Host Link but its own reply. -/
theorem hostCommand_doneKept {body : State → CommandReply} (hx : s.link.execution = none)
    (hb : body (s.atWork code) = .answer p u) (hl : u.link = (s.atWork code).link := by rfl) :
    ∃ t, hostCommand code body s = .next t ∧ Done s t code p s.wake.link ∧ t = { u with link := t.link } := by
  obtain ⟨t, ht, hd, hrest⟩ := hostCommand_done hx hb ((State.atWork_atWork hx).of_link hl)
  rw [hl] at hd
  exact ⟨t, ht, hd.woken, hrest⟩

/-- What R3 says of a command that names a beltpack. -/
def CheckedFirst (i : Instr) (s : State) (ref : BeltpackRef) (code : Byte) (inRange : Prop) (held : Bool) : Prop :=
  ∃ t, exec i s = .next t ∧
    (OutOfRange ref → Refused s t code .badValue) ∧
    (¬ OutOfRange ref → (∀ e x, ¬ Named s ref e x) → Refused s t code .noEntry) ∧
    ∀ e x, Named s ref e x →
      (¬ inRange → Refused s t code .badValue) ∧
      (inRange → held = true → x.posted ≠ none → Refused s t code .posted)

theorem Named.unique {e' : EntryNo} {x' : Entry} (h : Named s ref e x) (h' : Named s ref e' x') : e' = e ∧ x' = x := by
  have he : e' = e := by simpa [State.resolve_named h] using (State.resolve_named h').symm
  subst he
  exact ⟨rfl, Option.some.inj (h'.1.symm.trans h.1)⟩

theorem checkedFirst_of (hx : s.link.execution = none) {i : Instr} {inRange : Prop}
    (hi : exec i s = hostCommand code (withBeltpack ref values held k) s) (hv : values = none ↔ ¬ inRange) :
    CheckedFirst i s ref code inRange held := by
  unfold CheckedFirst
  rw [hi]
  by_cases ho : OutOfRange ref
  · obtain ⟨t, ht, hr⟩ := hostCommand_refused (code := code) hx (withBeltpack_outOfRange (k := k) (s := s.atWork code) ho)
    exact ⟨t, ht, fun _ => hr, fun hn => absurd ho hn, fun e x h => absurd ho h.2.1⟩
  by_cases hn : ∀ e x, ¬ Named s ref e x
  · obtain ⟨t, ht, hr⟩ := hostCommand_refused (code := code) hx (withBeltpack_noEntry (values := values) (held := held) (k := k) (s := s.atWork code) ho
      fun e x h => hn e x (h.of_roster rfl))
    exact ⟨t, ht, fun h => absurd h ho, fun _ _ => hr, fun e x h => absurd h (hn e x)⟩
  push Not at hn
  obtain ⟨e, x, hnamed⟩ := hn
  have huniq : ∀ {P : EntryNo → Entry → Prop}, P e x → ∀ e' x', Named s ref e' x' → P e' x' := by
    intro P hP e' x' h'
    obtain ⟨rfl, rfl⟩ := hnamed.unique h'
    exact hP
  cases hval : values with
  | none =>
    obtain ⟨t, ht, hr⟩ := hostCommand_refused (code := code) hx (withBeltpack_badValue (held := held) (k := k) (hnamed.atWork code) hval)
    rw [hval] at ht
    exact ⟨t, ht, fun h => absurd h ho, fun _ h => absurd hnamed (h e x), fun _ _ _ => ⟨fun _ => hr, fun h => absurd h (hv.mp hval)⟩⟩
  | some v =>
    have hin : inRange := by by_contra h; rw [hv.mpr h] at hval; cases hval
    by_cases hp : held = true ∧ x.posted ≠ none
    · obtain ⟨t, ht, hr⟩ := hostCommand_refused (code := code) hx (withBeltpack_posted (k := k) (hnamed.atWork code) hval hp.1 hp.2)
      rw [hval] at ht
      exact ⟨t, ht, fun h => absurd h ho, fun _ h => absurd hnamed (h e x), fun _ _ _ => ⟨fun h => absurd hin h, fun _ _ _ => hr⟩⟩
    · rw [← hval]
      refine ⟨_, hostCommand_atWork hx, fun h => absurd h ho, fun _ h => absurd hnamed (h e x),
        huniq ⟨fun h => absurd hin h, fun _ hh hpost => absurd ⟨hh, hpost⟩ hp⟩⟩
end

theorem checkedFirst_resolve (hx : s.link.execution = none) {i : Instr}
    {k : EntryNo → Entry → PostedFault → State → CommandReply}
    (hi : exec i s = hostCommand 0x2A (resolveBody ref k) s) : CheckedFirst i s ref 0x2A True false :=
  checkedFirst_of hx hi (by simp)

theorem number?_range {n : Nat} {b : Byte} : number? (n + 1) b = none ↔ ¬ b.toNat ≤ n := by
  rw [number?_eq_none]; omega

theorem bit?_range {b : Byte} : bit? b = none ↔ ¬ b.toNat ≤ 1 := by
  unfold bit?
  by_cases h0 : b = 0
  · subst h0; simp
  by_cases h1 : b = 1
  · subst h1; simp
  · rw [if_neg h0, if_neg h1]
    simp only [true_iff]; bv_omega

theorem group?_none {b : Byte} : group? b = none ↔ ¬ b.toNat ≤ 63 := by
  unfold group?
  by_cases h0 : b = 0
  · subst h0; simp
  · rw [if_neg h0]
    cases hb : number? 64 b with
    | none => simpa using number?_range.mp hb
    | some g => simpa using mt number?_range.mpr (by rw [hb]; nofun)

/-- A group byte in range is the byte of its group. -/
theorem group?_some {b : Byte} {g : Option Group} (h : group? b = some g) : b = groupByte g ∧ (g.isSome = true ↔ b ≠ 0) := by
  unfold group? at h
  split at h
  · rename_i hb; obtain rfl := Option.some.inj h; exact ⟨hb, by simp [hb]⟩
  · rename_i hb
    split at h
    · cases h
    · rename_i g' hg; obtain rfl := Option.some.inj h; exact ⟨number?_some hg, iff_of_true rfl hb⟩

theorem groupByte_of_ne_zero {g : Option Group} (h : g ≠ some 0) : group? (groupByte g) = some g := by
  cases g with
  | none => rfl
  | some g =>
    have hb : byte g ≠ 0 := by
      intro hb
      have := congrArg BitVec.toNat hb
      rw [byte_toNat (by omega)] at this
      exact h (by congr; exact Fin.ext this)
    have hg : group? (byte g) = some (some g) := by
      unfold group?
      rw [if_neg hb, number?_byte (by omega)]
    exact hg

theorem groups?_range {b b' : Byte} : groups? b b' = none ↔ ¬ groupsInRange b b' := by
  unfold groups? groupsInRange
  cases hb : group? b with
  | none => simp [group?_none.mp hb]
  | some g =>
    have h1 : b.toNat ≤ 63 := by by_contra h; rw [group?_none.mpr h] at hb; cases hb
    cases hb' : group? b' with
    | none => simp [group?_none.mp hb']
    | some g' =>
      have h2 : b'.toNat ≤ 63 := by by_contra h; rw [group?_none.mpr h] at hb'; cases hb'
      obtain ⟨e1, i1⟩ := group?_some hb
      obtain ⟨e2, i2⟩ := group?_some hb'
      have heq : g = g' ↔ b = b' := by
        constructor
        · rintro rfl; rw [e1, e2]
        · rintro rfl; exact Option.some.inj (hb.symm.trans hb')
      simp only [ite_eq_left_iff, Bool.and_eq_true, beq_iff_eq, h1, h2, true_and, not_not, i1, heq]
      simp

/-- Settles O21, command by command: each is `withBeltpack` over its values. -/
theorem referencesAreCheckedFirst : Obligations.ReferencesAreCheckedFirst := by
  intro s i ref code inRange held hi hx
  change CheckedFirst i s ref code inRange held
  have hunit : (some () = none) ↔ ¬ True := by simp
  unfold beltpackCommand at hi
  split at hi <;> cases hi
  case h_1 => exact checkedFirst_of hx rfl hunit
  case h_2 => exact checkedFirst_of hx rfl hunit
  case h_3 => exact checkedFirst_of hx rfl groups?_range
  case h_4 => exact checkedFirst_of hx rfl number?_range
  case h_5 => exact checkedFirst_of hx rfl bit?_range
  case h_6 => exact checkedFirst_of hx rfl number?_range
  case h_7 => exact checkedFirst_of hx rfl hunit
  case h_8 => exact checkedFirst_of hx rfl hunit
  case h_9 => exact checkedFirst_of hx rfl hunit
  case h_10 => exact checkedFirst_resolve hx (i := .resolveFaultDismiss ref) rfl
  case h_11 => exact checkedFirst_resolve hx (i := .resolveFaultRetry ref) rfl
  case h_12 => exact checkedFirst_resolve hx (i := .resolveFaultNext ref) rfl
  case h_13 => exact checkedFirst_resolve hx (i := .resolveFaultDetach ref) rfl
  case h_14 => exact checkedFirst_of hx rfl bit?_range

/-! ### Enrol (R4) -/

theorem State.lowestIndex_some : s.lowestIndex = some e ↔ s.entry e = none ∧ ∀ e' < e, s.entry e' ≠ none := by
  unfold State.lowestIndex
  rw [find_finRange_eq_some]
  simp [Option.isSome_iff_ne_none]

theorem State.lowestIndex_none : s.lowestIndex = none ↔ ∀ e, s.entry e ≠ none := by
  unfold State.lowestIndex
  rw [find_finRange_eq_none]
  simp [Option.isSome_iff_ne_none]

theorem invalidId_false {id : BeltpackId} : invalidId id = false ↔ ¬ (id = 0x000000 ∨ id = 0xFFFFFF) := by
  rw [← invalidId_iff, Bool.not_eq_true]

/-- What Enrol Beltpack refuses for its values. -/
abbrev EnrolOutOfRange (id : BeltpackId) (c a b : Byte) : Prop :=
  id = 0x000000 ∨ id = 0xFFFFFF ∨ 3 < c.toNat ∨ ¬ groupsInRange a b

theorem enrolBody_outOfRange {id : BeltpackId} {c a b : Byte} (h : EnrolOutOfRange id c a b) :
    enrolBody id c a b s = .refuse .badValue := by
  have hnone : invalidId id = true ∨ number? 4 c = none ∨ groups? a b = none := by
    rw [invalidId_iff, number?_range, groups?_range]
    rcases h with h | h | h | h
    exacts [.inl (.inl h), .inl (.inr h), .inr (.inl (by omega)), .inr (.inr h)]
  unfold enrolBody
  split
  next hi hk hg =>
    rcases hnone with h | h | h
    · rw [hi] at h; cases h
    · rw [hk] at h; cases h
    · rw [hg] at h; cases h
  next => rfl

theorem enrolValues {id : BeltpackId} {c a b : Byte} (h : ¬ EnrolOutOfRange id c a b) :
    invalidId id = false ∧ ∃ k g, number? 4 c = some k ∧ groups? a b = some g := by
  unfold EnrolOutOfRange at h
  push Not at h
  obtain ⟨h1, h2, h3, h4⟩ := h
  refine ⟨invalidId_false.mpr (by rintro (h | h); exacts [h1 h, h2 h]), ?_⟩
  obtain ⟨k, hk⟩ := Option.ne_none_iff_exists'.mp (mt number?_range.mp (by omega : ¬ ¬ c.toNat ≤ 3))
  obtain ⟨g, hg⟩ := Option.ne_none_iff_exists'.mp (mt groups?_range.mp (not_not.mpr h4))
  exact ⟨k, g, hk, hg⟩

theorem enrolBody_values {id : BeltpackId} {c a b : Byte} {k : ClassNo} {g : Option Group × Option Group}
    (hi : invalidId id = false) (hk : number? 4 c = some k) (hg : groups? a b = some g) :
    enrolBody id c a b s =
      if (s.findId id).isSome then .refuse .duplicate
      else match s.lowestIndex with
        | none => .refuse .rosterFull
        | some e => .answer [byte e] { s.putEntry e (some (newEntry id k g)) with strangers := s.strangers.filter (· != id) } := by
  unfold enrolBody
  rw [hi, hk, hg] <;> rfl

theorem number?_val {n : Nat} {b : Byte} {i : Fin n} (h : number? n b = some i) : i.val = b.toNat := by
  unfold number? at h
  split at h
  · obtain rfl := Option.some.inj h; rfl
  · cases h

theorem group?_val {b : Byte} {g : Option Group} (h : group? b = some g) :
    g.map Fin.val = if b = 0 then none else some b.toNat := by
  unfold group? at h
  split at h
  · rename_i hb; obtain rfl := Option.some.inj h; rw [if_pos hb]; rfl
  · rename_i hb
    split at h
    · cases h
    · rename_i g' hg; obtain rfl := Option.some.inj h; rw [if_neg hb, ← number?_val hg]; rfl

theorem groups?_some {b b' : Byte} {g : Option Group × Option Group} (h : groups? b b' = some g) :
    group? b = some g.1 ∧ group? b' = some g.2 := by
  unfold groups? at h
  split at h
  · split at h
    · cases h
    · rename_i h1 h2 _; obtain rfl := Option.some.inj h; exact ⟨h1, h2⟩
  · cases h

/-- Settles O22: the checks in order, then the new entry at the lowest free index. -/
theorem enrolMakesAnEntry : Obligations.EnrolMakesAnEntry := by
  intro s id c a b h
  change ∃ t, hostCommand 0x20 (enrolBody id c a b) s = .next t ∧ _
  by_cases hbad : EnrolOutOfRange id c a b
  · obtain ⟨t, ht, hr⟩ := hostCommand_refused h (enrolBody_outOfRange (s := s.atWork 0x20) hbad)
    exact ⟨t, ht, fun _ => hr, fun hn => absurd hbad hn, fun hn => absurd hbad hn, fun e hn => absurd hbad hn⟩
  obtain ⟨hi, k, g, hk, hg⟩ := enrolValues hbad
  have hbody := enrolBody_values (s := s.atWork 0x20) hi hk hg
  have hknown : ((s.atWork 0x20).findId id).isSome = true ↔ ∃ e x, s.entry e = some x ∧ x.id = id := by
    rw [Option.isSome_iff_ne_none, ne_eq, State.findId_none]
    unfold UnknownId
    push Not
    rfl
  by_cases hkn : ∃ e x, s.entry e = some x ∧ x.id = id
  · rw [if_pos (hknown.mpr hkn)] at hbody
    obtain ⟨t, ht, hr⟩ := hostCommand_refused h hbody
    exact ⟨t, ht, fun hn => absurd hn hbad, fun _ _ => hr, fun _ hn => absurd hkn hn, fun e _ hn => absurd hkn hn⟩
  rw [if_neg (mt hknown.mp hkn)] at hbody
  cases hlow : (s.atWork 0x20).lowestIndex with
  | none =>
    rw [hlow] at hbody
    obtain ⟨t, ht, hr⟩ := hostCommand_refused h hbody
    exact ⟨t, ht, fun hn => absurd hn hbad, fun _ hn => absurd hn hkn, fun _ _ _ => hr,
      fun e _ _ he => absurd he (State.lowestIndex_none.mp hlow e)⟩
  | some e =>
    rw [hlow] at hbody
    obtain ⟨he, hlt⟩ := State.lowestIndex_some.mp hlow
    obtain ⟨t, ht, hd, hrest⟩ := hostCommand_done h hbody ((State.atWork_atWork h).of_link rfl)
    refine ⟨t, ht, fun hn => absurd hn hbad, fun _ hn => absurd hn hkn, fun _ _ hn => absurd he (hn e), ?_⟩
    intro e' _ _ he' hlt'
    have heq : e' = e := Option.some.inj ((State.lowestIndex_some.mpr ⟨he', hlt'⟩ : s.lowestIndex = some e').symm.trans hlow)
    subst heq
    obtain ⟨hga, hgb⟩ := groups?_some hg
    refine ⟨hd.woken, ⟨newEntry id k g, by rw [hrest]; rfl, rfl, rfl, number?_val hk, group?_val hga, group?_val hgb,
      rfl, rfl, rfl, rfl, rfl, rfl, rfl, rfl, rfl, rfl, rfl⟩, ?_, ?_⟩
    · rw [hrest]
      exact List.filter_congr fun y _ => by rw [decide_not, bne, beq_eq_decide]
    · rw [hrest]; rfl

/-! ### Withdraw (R5) -/

theorem State.holdsUnsettledSlot_iff : s.holdsUnsettledSlot e = true ↔ Unsettled s e := by
  unfold State.holdsUnsettledSlot
  simp only [List.any_eq_true, mem_toList_iff, Bool.or_eq_true, beq_iff_eq]
  constructor
  · rintro ⟨_, ⟨a, rfl⟩, _, ⟨sl, rfl⟩, h⟩; exact ⟨a, sl, h⟩
  · rintro ⟨a, sl, h⟩; exact ⟨_, ⟨a, rfl⟩, _, ⟨sl, rfl⟩, h⟩

/-- The first check of a command that a transaction or an unsettled slot refuses. -/
theorem inTransit_iff : (x.context.isSome || s.holdsUnsettledSlot e) = true ↔ x.context ≠ none ∨ Unsettled s e := by
  rw [Bool.or_eq_true, Option.isSome_iff_ne_none, State.holdsUnsettledSlot_iff]

theorem withdrawBody_named (h : Named s ref e x) (hp : x.posted = none) :
    withdrawBody ref s =
      if x.context.isSome || s.holdsUnsettledSlot e then .refuse .inTransit
      else match x.state with
        | .unattached | .lost => .answer [] ((s.removeRequest e).putEntry e none)
        | .attaching | .served | .moving => .refuse .state :=
  withBeltpack_taken h rfl fun _ => hp

/-- Settles O23: refused in transit, refused while Served, and the entry removed. -/
theorem withdrawRemovesTheEntry : Obligations.WithdrawRemovesTheEntry := by
  intro s ref e x hx h hp
  change ∃ t, hostCommand 0x21 (withdrawBody ref) s = .next t ∧ _
  have hbody := withdrawBody_named (h.atWork 0x21) hp
  by_cases htr : x.context ≠ none ∨ Unsettled s e
  · rw [if_pos (inTransit_iff (s := s.atWork 0x21).mpr htr)] at hbody
    obtain ⟨t, ht, hr⟩ := hostCommand_refused hx hbody
    exact ⟨t, ht, fun _ => hr, fun h1 h2 => absurd htr (by simp [h1, h2]), fun h1 h2 => absurd htr (by simp [h1, h2])⟩
  rw [if_neg (mt (inTransit_iff (s := s.atWork 0x21)).mp htr)] at hbody
  cases hst : x.state with
  | unattached | lost =>
    rw [hst] at hbody
    obtain ⟨t, ht, hd, hrest⟩ := hostCommand_doneKept hx hbody
    refine ⟨t, ht, fun hn => absurd hn htr, nofun, fun _ _ _ => ⟨hd, ?_⟩⟩
    rw [hrest, State.removeRequest_eq]; rfl
  | served | attaching | moving =>
    rw [hst] at hbody
    obtain ⟨t, ht, hr⟩ := hostCommand_refused hx hbody
    exact ⟨t, ht, fun hn => absurd hn htr, fun _ _ _ => hr, fun _ _ hn => by rcases hn with hn | hn <;> cases hn⟩

/-! ### The reads (R6, R22) -/

theorem flagBits4_eq (p q r w : Bool) : flagBits [p, q, r, w] = bitsByte [(0, p), (1, q), (2, r), (3, w)] := by
  revert p q r w; decide

theorem flagBits6_eq (p q r w y z : Bool) :
    flagBits [p, q, r, w, y, z] = bitsByte [(0, p), (1, q), (2, r), (3, w), (4, y), (5, z)] := by
  revert p q r w y z; decide

theorem RosterState.byte_code (k : RosterState) :
    byte k.code = match k with | .unattached => 0 | .attaching => 1 | .served => 2 | .moving => 3 | .lost => 4 := by
  cases k <;> rfl

theorem State.queued_iff : s.queued e = true ↔ HasRequest s e := by
  simp [State.queued]

theorem State.queued_eq (s : State) (e : EntryNo) : s.queued e = decide (HasRequest s e) := by
  rw [Bool.eq_iff_iff, State.queued_iff, decide_eq_true_iff]

theorem beltpackBytes_eq (s : State) (e : EntryNo) (x : Entry) : s.beltpackBytes e x = beltpackAnswer s e x := by
  unfold State.beltpackBytes beltpackAnswer
  rw [flagBits4_eq, flagBits6_eq, RosterState.byte_code, State.queued_eq]
  have hadm : (x.admission == .barred) = decide (x.admission = .barred) := beq_eq_decide _ _
  have hposted : optionBytes PostedFault.bytes x.posted = match x.posted with
      | none => []
      | some p => [p.reported.code, p.current, match p.target with | none => 0xFF | some a => byte a, byte p.cause.rank] := by
    cases x.posted with
    | none => rfl
    | some p => simp only [optionBytes, PostedFault.bytes]; cases p.target <;> rfl
  rw [hadm, hposted]
  cases x.survey.servingScore <;> cases x.serving <;> cases x.context <;> rfl

/-- Settles O24. -/
theorem beltpackReadsAnswerTheEntry : Obligations.BeltpackReadsAnswerTheEntry := by
  intro s ref e x hx h
  constructor
  · have hbody : readBeltpackBody ref (s.atWork 0x22) = .answer ((s.atWork 0x22).beltpackBytes e x) (s.atWork 0x22) :=
      withBeltpack_taken (h.atWork 0x22) rfl nofun
    rw [beltpackBytes_eq] at hbody
    exact hostCommand_told hx hbody
  · have hbody : readConditionsBody ref (s.atWork 0x29) = .answer [x.current, x.accrued] _ :=
      withBeltpack_taken (h.atWork 0x29) rfl nofun
    rw [State.mapEntry_eq (s := s.atWork 0x29) (x := x) h.1] at hbody
    exact hostCommand_doneKept hx hbody

/-! ### Class, pin, admission (R20, R21) -/

/-- A command that changes one field of its entry. -/
theorem beltpack_entry {α : Type} {values : Option α} {held : Bool} {v : α} {f : α → Entry → Entry} (hx : s.link.execution = none)
    (h : Named s ref e x) (hv : values = some v) (hp : held = true → x.posted = none) :
    ∃ t, hostCommand code (withBeltpack ref values held fun e _ v s => .answer [] (s.mapEntry e (f v))) s = .next t ∧
      Done s t code [] s.wake.link ∧ t = { s with link := t.link, roster := s.roster.set e (some (f v x)) } := by
  have hbody : withBeltpack ref values held (fun e _ v s => .answer [] (s.mapEntry e (f v))) (s.atWork code) =
      .answer [] ((s.atWork code).mapEntry e (f v)) := withBeltpack_taken (h.atWork code) hv hp
  rw [State.mapEntry_eq (s := s.atWork code) (x := x) h.1] at hbody
  exact hostCommand_doneKept hx hbody

theorem bit?_bool (b : Bool) : bit? (if b then 1 else 0) = some b := by cases b <;> rfl

/-- Settles O26. -/
theorem classPinAndAdmissionAreSet : Obligations.ClassPinAndAdmissionAreSet := by
  intro s ref e x hx h
  refine ⟨fun hp k => ?_, fun hp b => ?_, fun b => ?_⟩
  · exact beltpack_entry (f := fun k x => { x with cls := k }) hx h (number?_byte (by omega) k) fun _ => hp
  · exact beltpack_entry (f := fun p x => { x with pinned := p }) hx h (bit?_bool b) fun _ => hp
  · exact beltpack_entry (f := fun b x => { x with admission := if b then .barred else .admitted }) (held := false) hx h (bit?_bool b) (by simp)

/-! ### Direct Handoff and Cancel Request (R178, R111) -/

theorem State.hostRaiseFull_iff : s.hostRaiseFull e = true ↔ QueueFullFor s e := by
  unfold State.hostRaiseFull QueueFullFor
  rw [State.queued_eq, Bool.and_eq_true, Bool.not_eq_true', decide_eq_false_iff_not, decide_eq_true_iff]
  rfl

theorem directHandoffBody_named (h : Named s ref e x) (hp : x.posted = none) (a : AntennaNo) :
    directHandoffBody ref (byte a) s =
      if x.context.isSome then .refuse .inTransit
      else if x.state = .unattached ∧ x.admission = .barred then .refuse .state
      else if !(s.ant a).open then .refuse .notOpen
      else if s.hostRaiseFull e then .refuse .queueFull
      else .answer [] (s.raiseRequest e ⟨.directed, some a, 0⟩).settle :=
  withBeltpack_taken h (number?_byte (by omega) a) fun _ => hp

/-- Settles O27: the four checks in order, then the Directed request. -/
theorem directHandoffRaisesADirectedRequest : Obligations.DirectHandoffRaisesADirectedRequest := by
  intro s ref e x a hx h hp
  change ∃ t, hostCommand 0x26 (directHandoffBody ref (byte a)) s = .next t ∧ _
  have hbody := directHandoffBody_named (h.atWork 0x26) hp a
  by_cases h1 : x.context ≠ none
  · rw [if_pos (Option.isSome_iff_ne_none.mpr h1)] at hbody
    simp only [if_pos h1]
    exact hostCommand_refused hx hbody
  rw [if_neg (mt Option.isSome_iff_ne_none.mp h1)] at hbody
  simp only [if_neg h1]
  by_cases h2 : x.state = .unattached ∧ x.admission = .barred
  · rw [if_pos h2] at hbody
    simp only [if_pos h2]
    exact hostCommand_refused hx hbody
  rw [if_neg h2] at hbody
  simp only [if_neg h2]
  by_cases h3 : (s.ant a).open = false
  · rw [if_pos (by rw [show ((s.atWork 0x26).ant a).open = false from h3]; rfl)] at hbody
    simp only [if_pos h3]
    exact hostCommand_refused hx hbody
  rw [if_neg (by rw [show ((s.atWork 0x26).ant a).open = (s.ant a).open from rfl]; simpa using h3)] at hbody
  simp only [if_neg h3]
  by_cases h4 : QueueFullFor s e
  · rw [if_pos ((State.hostRaiseFull_iff (s := s.atWork 0x26)).mpr h4)] at hbody
    simp only [if_pos h4]
    exact hostCommand_refused hx hbody
  rw [if_neg (mt (State.hostRaiseFull_iff (s := s.atWork 0x26)).mp h4)] at hbody
  simp only [if_neg h4]
  exact hostCommand_doneThen hx hbody (State.raiseRequest_settled _ _ _).link

/-- Cancel Request of a beltpack without a queued request. -/
theorem cancelBody_named (h : Named s ref e x) (hp : x.posted = none) :
    cancelBody ref s =
      if s.queued e then .answer [] (s.removeRequest e)
      else match x.context with
        | none => .refuse .state
        | some c =>
          match s.ctx c with
          | none => .refuse .state
          | some t => if t.phase = .reserve then .answer [] (s.cancelTransaction c) else .refuse .tooLate :=
  withBeltpack_taken h rfl fun _ => hp

/-- Settles O28: a queued request, no transaction, a transaction in Reserve, and one in a later phase. -/
theorem cancelEndsAReserve : Obligations.CancelEndsAReserve := by
  intro s ref e x hx h hp
  change ∃ t, hostCommand 0x27 (cancelBody ref) s = .next t ∧ _
  have hbody := cancelBody_named (h.atWork 0x27) hp
  by_cases hq : HasRequest s e
  · rw [if_pos ((State.queued_iff (s := s.atWork 0x27)).mpr hq), State.removeRequest_eq] at hbody
    obtain ⟨t, ht, hd, hrest⟩ := hostCommand_doneKept hx hbody
    exact ⟨t, ht, fun _ => ⟨hd, hrest⟩, fun hn => absurd hq hn, fun c y hn => absurd hq hn⟩
  rw [if_neg (mt (State.queued_iff (s := s.atWork 0x27)).mp hq)] at hbody
  cases hc : x.context with
  | none =>
    rw [hc] at hbody
    obtain ⟨t, ht, hr⟩ := hostCommand_refused hx hbody
    exact ⟨t, ht, fun hn => absurd hn hq, fun _ _ => hr, fun c y _ hn => by cases hn⟩
  | some c =>
    rw [hc] at hbody
    cases hy : s.ctx c with
    | none =>
      simp only [show (s.atWork 0x27).ctx c = none from hy] at hbody
      obtain ⟨t, ht, hr⟩ := hostCommand_refused hx hbody
      refine ⟨t, ht, fun hn => absurd hn hq, nofun, fun c' y _ hn hy2 => ?_⟩
      obtain rfl := Option.some.inj hn
      rw [hy] at hy2; cases hy2
    | some y =>
      simp only [show (s.atWork 0x27).ctx c = some y from hy] at hbody
      by_cases hph : y.phase = .reserve
      · rw [if_pos hph] at hbody
        obtain ⟨t, ht, hd⟩ := hostCommand_doneThen hx hbody
          ((State.giveUpAttempt_settled _ _).trans (State.endTransaction_settled _ _)).link
        refine ⟨t, ht, fun hn => absurd hn hq, nofun, fun c' y' _ h1 h2 => ?_⟩
        obtain rfl := Option.some.inj h1
        obtain rfl := Option.some.inj (hy.symm.trans h2)
        exact ⟨fun _ => hd, fun hn => absurd hph hn⟩
      · rw [if_neg hph] at hbody
        obtain ⟨t, ht, hr⟩ := hostCommand_refused hx hbody
        refine ⟨t, ht, fun hn => absurd hn hq, nofun, fun c' y' _ h1 h2 => ?_⟩
        obtain rfl := Option.some.inj h1
        obtain rfl := Option.some.inj (hy.symm.trans h2)
        exact ⟨fun hn => absurd hn hph, fun _ => hr⟩

/-! ### Detach and Resolve Fault (R16, R130 to R132) -/

theorem detachBody_named (h : Named s ref e x) (hp : x.posted = none) :
    detachBody ref s = if x.context.isSome then .refuse .inTransit else .answer [] (s.detach e x) :=
  withBeltpack_taken h rfl fun _ => hp

theorem resolveBody_named {k : EntryNo → Entry → PostedFault → State → CommandReply} (h : Named s ref e x) :
    resolveBody ref k s = match x.posted with | none => .refuse .state | some p => k e x p s :=
  withBeltpack_taken h rfl nofun

theorem resolveBody_posted {k : EntryNo → Entry → PostedFault → State → CommandReply} {p : PostedFault}
    (h : Named s ref e x) (hp : x.posted = some p) : resolveBody ref k s = k e x p s := by
  rw [resolveBody_named h, hp]

theorem resolveBody_notPosted {k : EntryNo → Entry → PostedFault → State → CommandReply}
    (h : Named s ref e x) (hp : x.posted = none) : resolveBody ref k s = .refuse .state := by
  rw [resolveBody_named h, hp]

theorem resolveBody_refused {k : EntryNo → Entry → PostedFault → State → CommandReply} (hx : s.link.execution = none)
    (h : Named s ref e x) (hp : x.posted = none) :
    ∃ t, hostCommand 0x2A (resolveBody ref k) s = .next t ∧ Refused s t 0x2A .state :=
  hostCommand_refused hx (resolveBody_notPosted (h.atWork 0x2A) hp)

/-- A raise that resolves a posting: refused for a transaction or a full queue, or raised with the posting cleared (R131). -/
theorem resolveRaise_cases {k : EntryNo → Entry → PostedFault → State → CommandReply} {q : PostedFault} {w : Raise}
    (hx : s.link.execution = none) (h : Named s ref e x) (hp : x.posted = some q)
    (hk : k e x q (s.atWork 0x2A) = resolveRaise e x w (s.atWork 0x2A)) :
    ∃ t, hostCommand 0x2A (resolveBody ref k) s = .next t ∧
      if x.context ≠ none then Refused s t 0x2A .inTransit
      else if QueueFullFor s e then Refused s t 0x2A .queueFull
      else DoneThen s t 0x2A []
        (State.raiseRequest { s.atWork 0x2A with roster := s.roster.set e (some { x with posted := none }) } e w) := by
  have hbody := resolveBody_posted (k := k) (h.atWork 0x2A) hp
  rw [hk, resolveRaise, State.clearPosting, State.mapEntry_eq (s := s.atWork 0x2A) (x := x) h.1] at hbody
  by_cases h1 : x.context ≠ none
  · rw [if_pos (Option.isSome_iff_ne_none.mpr h1)] at hbody
    simp only [if_pos h1]
    exact hostCommand_refused hx hbody
  rw [if_neg (mt Option.isSome_iff_ne_none.mp h1)] at hbody
  simp only [if_neg h1]
  by_cases h2 : QueueFullFor s e
  · rw [if_pos ((State.hostRaiseFull_iff (s := s.atWork 0x2A)).mpr h2)] at hbody
    simp only [if_pos h2]
    exact hostCommand_refused hx hbody
  rw [if_neg (mt (State.hostRaiseFull_iff (s := s.atWork 0x2A)).mp h2)] at hbody
  simp only [if_neg h2]
  exact hostCommand_doneThen hx hbody
    (State.raiseRequest_settled { s.atWork 0x2A with roster := s.roster.set e (some { x with posted := none }) } e w).link

/-- Settles O30: no posting, then Dismiss, Retry and Next of one. -/
theorem resolveFaultSettlesThePosting : Obligations.ResolveFaultSettlesThePosting := by
  intro s ref e x hx h
  refine ⟨fun hp i hi => ?_, fun q hp => ⟨?_, resolveRaise_cases hx h hp rfl, resolveRaise_cases hx h hp rfl⟩⟩
  · simp only [List.mem_cons, List.not_mem_nil, or_false] at hi
    rcases hi with rfl | rfl | rfl | rfl <;> exact resolveBody_refused hx h hp
  · have hbody := resolveBody_posted (k := fun e _ _ s => .answer [] (s.clearPosting e)) (h.atWork 0x2A) hp
    rw [State.clearPosting, State.mapEntry_eq (s := s.atWork 0x2A) (x := x) h.1] at hbody
    exact hostCommand_doneKept hx hbody

/-! ### Off air (R16) -/

/-- Detach's first step: a Served beltpack's slot is released. -/
def State.offSlot (s : State) (x : Entry) : State :=
  match x.state, x.serving with
  | .served, some (a, sl) => s.releaseSlot a sl
  | _, _ => s

theorem State.detach_eq (s : State) (e : EntryNo) (x : Entry) :
    s.detach e x =
      let v := ((s.offSlot x).removeRequest e).mapEntry e fun x => { x with admission := .barred }
      if x.state = .unattached then v else v.detachWith e .detach := rfl

theorem State.offSlot_served (hst : x.state = .served) (hs : x.serving = some (a, sl)) : s.offSlot x = s.releaseSlot a sl := by
  rw [State.offSlot, hst, hs]

theorem State.offSlot_not (hst : x.state ≠ .served) : s.offSlot x = s := by
  unfold State.offSlot
  split
  · contradiction
  · rfl

/-- Barred, and without a queued request. -/
theorem State.barred_eq {y : Entry} (he : s.entry e = some y) :
    ((s.removeRequest e).mapEntry e fun x => { x with admission := .barred }) =
      { s with roster := s.roster.set e (some { y with admission := .barred }), queue := s.queue.filter (·.entry ≠ e) } := by
  rw [State.removeRequest_eq]
  exact State.mapEntry_eq (s := { s with queue := s.queue.filter (·.entry ≠ e) }) he _

theorem State.detach_unattached {y : Entry} (he : s.entry e = some y) (hst : x.state = .unattached) :
    s.detach e x =
      { s with roster := s.roster.set e (some { y with admission := .barred }), queue := s.queue.filter (·.entry ≠ e) } := by
  rw [State.detach_eq, State.offSlot_not (by rw [hst]; nofun), State.barred_eq he]
  simp only [if_pos hst]

/-- A beltpack that was on air goes off air, with its notice. -/
theorem State.detach_onAir {y : Entry} (he : (s.offSlot x).entry e = some y) (hst : x.state ≠ .unattached) :
    s.detach e x = { s.offSlot x with
      link := (s.offSlot x).link.queueNotice (.unattached e y.id .detach),
      roster := (s.offSlot x).roster.set e (some { y with admission := .barred }.offAir),
      queue := (s.offSlot x).queue.filter (·.entry ≠ e) } := by
  rw [State.detach_eq, State.barred_eq he]
  simp only [if_neg hst]
  generalize s.offSlot x = v at *
  have hv : ({ v with roster := v.roster.set e (some { y with admission := .barred }),
                      queue := v.queue.filter (·.entry ≠ e) } : State).entry e = some { y with admission := .barred } :=
    get_set_self _ _ _
  rw [State.detachWith_eq hv]
  simp only [set_set]

/-- Releasing a slot reads of the roster the IDs alone. -/
theorem State.releaseSlot_ids (ha : t.antennas = s.antennas) (hr : ∀ e, (t.entry e).map Entry.id = (s.entry e).map Entry.id)
    (hp : t.ports = s.ports) (hn : t.running = s.running) (hl : t.policy = s.policy) :
    t.releaseSlot a sl = { t with antennas := (s.releaseSlot a sl).antennas, ports := (s.releaseSlot a sl).ports } := by
  have hslot : t.slot a sl = s.slot a sl := by simp only [State.slot, State.ant, ha]
  have hpost : ∀ v o, (t.setSlot a sl v).postOrder a o =
      { t with antennas := ((s.setSlot a sl v).postOrder a o).antennas, ports := ((s.setSlot a sl v).postOrder a o).ports } := by
    intro v o
    simp only [State.postOrder_eq, State.setSlot_eq, State.ant, State.port, ha, hp, hn, State.orderTimeout, State.item, hl]
  have hsame : t = { t with antennas := s.antennas, ports := s.ports } := by rw [← ha, ← hp]
  have hcase : ∀ e, s.slot a sl = .reserved e ∨ s.slot a sl = .occupied e →
      t.releaseSlot a sl = { t with antennas := (s.releaseSlot a sl).antennas, ports := (s.releaseSlot a sl).ports } := by
    intro e h
    cases hs : s.entry e with
    | some x =>
      obtain ⟨y, hy, hid⟩ : ∃ y, t.entry e = some y ∧ y.id = x.id := by
        have := hr e; rw [hs] at this; simpa using this
      rw [State.releaseSlot_held hs h, State.releaseSlot_held hy (hslot ▸ h), hid, hpost]
    | none =>
      have ht : t.entry e = none := by have := hr e; rw [hs] at this; simpa using this
      have hu : ∀ v : State, v.entry e = none → v.slot a sl = .reserved e ∨ v.slot a sl = .occupied e → v.releaseSlot a sl = v := by
        intro v hv h
        unfold State.releaseSlot
        rcases h with h | h <;> simp [h, hv]
      rw [hu s hs h, hu t ht (hslot ▸ h)]
      exact hsame
  cases hs : s.slot a sl with
  | reserved e => exact hcase e (.inl hs)
  | occupied e => exact hcase e (.inr hs)
  | free =>
    rw [State.releaseSlot_not (e := 0) (.inl hs), State.releaseSlot_not (e := 0) (.inl (hslot.trans hs))]
    exact hsame
  | releasing e =>
    rw [State.releaseSlot_not (.inr hs), State.releaseSlot_not (.inr (hslot.trans hs))]
    exact hsame

/-- The state in which a Detach does its work, its posting cleared. -/
abbrev State.detachWork (s : State) (code : Byte) (e : EntryNo) (x : Entry) : State :=
  { s.atWork code with roster := s.roster.set e (some { x with posted := none }) }

theorem detach_body {i : Instr} (h : Named s ref e x)
    (hi : i = .detachBeltpack ref ∧ code = 0x28 ∧ x.posted = none ∨
      i = .resolveFaultDetach ref ∧ code = 0x2A ∧ x.posted ≠ none) :
    ∃ body, exec i s = hostCommand code body s ∧ body (s.atWork code) =
      if x.context.isSome then .refuse .inTransit else .answer [] ((s.detachWork code e x).detach e x) := by
  rcases hi with ⟨rfl, rfl, hp⟩ | ⟨rfl, rfl, hp⟩
  · refine ⟨detachBody ref, rfl, ?_⟩
    have hsame : s.detachWork 0x28 e x = s.atWork 0x28 := by
      have hx : ({ x with posted := none } : Entry) = x := by rw [← hp]
      rw [State.detachWork, hx, set_of_get h.1]
    rw [detachBody_named (h.atWork 0x28) hp, hsame]
  · refine ⟨resolveDetachBody ref, rfl, ?_⟩
    obtain ⟨q, hq⟩ := Option.ne_none_iff_exists'.mp hp
    have hbody := resolveBody_posted
      (k := fun e x _ s => if x.context.isSome then .refuse .inTransit else .answer [] ((s.clearPosting e).detach e x))
      (h.atWork 0x2A) hq
    rw [State.clearPosting, State.mapEntry_eq (s := s.atWork 0x2A) (x := x) h.1] at hbody
    exact hbody

/-- Settles O29: in transit, Unattached, Lost, and Served. -/
theorem detachTakesOffAirAndBars : Obligations.DetachTakesOffAirAndBars := by
  intro s ref e x i code hx h hi
  obtain ⟨body, hexec, hbody⟩ := detach_body h hi
  rw [hexec]
  have hent : (s.detachWork code e x).entry e = some { x with posted := none } := get_set_self _ _ _
  cases hc : x.context with
  | some c =>
    rw [hc] at hbody
    obtain ⟨t, ht, hr⟩ := hostCommand_refused hx hbody
    exact ⟨t, ht, fun _ => hr, nofun, nofun, nofun⟩
  | none =>
    rw [hc] at hbody
    have hwork := State.atWork_atWork (code := code) hx
    cases hst : x.state with
    | unattached =>
      rw [if_neg (by simp), State.detach_unattached hent hst] at hbody
      obtain ⟨t, ht, hd, hrest⟩ := hostCommand_doneKept hx hbody
      refine ⟨t, ht, fun hn => absurd rfl hn, fun _ _ => ⟨hd, ?_⟩, nofun, nofun⟩
      rw [hrest]; simp only [set_set, hst, hc]
    | lost =>
      have hoff : (s.detachWork code e x).offSlot x = s.detachWork code e x := State.offSlot_not (by rw [hst]; nofun)
      rw [if_neg (by simp), State.detach_onAir (by rw [hoff]; exact hent) (by rw [hst]; nofun), hoff] at hbody
      obtain ⟨t, ht, hd, hrest⟩ := hostCommand_done hx hbody ((hwork.queueNotice (.unattached e x.id .detach)).of_link rfl)
      refine ⟨t, ht, fun hn => absurd rfl hn, nofun, fun _ _ => ⟨hd, ?_⟩, nofun⟩
      rw [hrest]; simp only [set_set]; rfl
    | served =>
      cases hs : x.serving with
      | none =>
        refine ⟨_, hostCommand_atWork hx, fun hn => absurd rfl hn, nofun, nofun, nofun⟩
      | some v =>
        obtain ⟨a, sl⟩ := v
        have hoff : (s.detachWork code e x).offSlot x = (s.detachWork code e x).releaseSlot a sl := State.offSlot_served hst hs
        have hids : ∀ e', ((s.detachWork code e x).entry e').map Entry.id = (s.entry e').map Entry.id := by
          intro e'
          by_cases hee : e = e'
          · subst hee; rw [hent, h.1]; rfl
          · exact congrArg _ (get_set_ne _ _ hee)
        have hrel := State.releaseSlot_ids (t := s.detachWork code e x) (s := s) (a := a) (sl := sl) rfl hids rfl rfl rfl
        rw [hrel] at hoff
        rw [if_neg (by simp), State.detach_onAir (by rw [hoff]; exact hent) (by rw [hst]; nofun), hoff] at hbody
        obtain ⟨t, ht, hd, hrest⟩ := hostCommand_done hx hbody ((hwork.queueNotice (.unattached e x.id .detach)).of_link rfl)
        refine ⟨t, ht, fun hn => absurd rfl hn, nofun, nofun, fun a' sl' _ _ hs' => ?_⟩
        obtain ⟨rfl, rfl⟩ := Prod.mk.inj (Option.some.inj hs')
        refine ⟨hd, ?_⟩
        rw [hrest, State.releaseSlot_eq s]; simp only [set_set]; rfl
    | attaching | moving =>
      exact ⟨_, hostCommand_atWork hx, fun hn => absurd rfl hn, nofun, nofun, nofun⟩

end Sys2Proof.Machine
end

section
/-! The lane table under R45: what counting and uncounting a group do to its lanes and to the users counted; Set Groups (R19, R55, R56), and the slots and lanes together (R47, R49, R51). -/

namespace Sys2Proof.Machine

variable {s t : State} {a : AntennaNo} {sl : SlotNo} {e : EntryNo} {x : Entry}

/-! ### One lane -/

/-- The users that one place of the table counts for a group. -/
def laneShare (v : Option Lane) (g : Group) : Nat :=
  match v with
  | none => 0
  | some l => if l.group = g then l.users else 0

theorem laneUsers_eq (t : Lanes) (g : Group) :
    laneUsers t g = laneShare (t.get 0) g + laneShare (t.get 1) g + laneShare (t.get 2) g + laneShare (t.get 3) g := by
  have h : laneUsers t g = ((List.finRange 4).map fun i => laneShare (t.get i) g).sum := rfl
  rw [h]
  simp only [show List.finRange 4 = [0, 1, 2, 3] from rfl, List.map_cons, List.map_nil, List.sum_cons, List.sum_nil]
  omega

/-- One place of the table changed. -/
theorem laneUsers_set (t : Lanes) (i : LaneNo) (v : Option Lane) (g : Group) :
    laneUsers (t.set i v) g + laneShare (t.get i) g = laneUsers t g + laneShare v g := by
  have h : ∀ j : LaneNo, (t.set i v).get j = if i = j then v else t.get j := by
    intro j; split
    · rename_i h; subst h; exact get_set_self _ _ _
    · rename_i h; exact get_set_ne _ _ h
  simp only [laneUsers_eq, h]
  fin_cases i <;> simp <;> omega

theorem laneShare_other {l : Lane} {g : Group} (h : l.group ≠ g) : laneShare (some l) g = 0 := if_neg h
theorem laneShare_own {l : Lane} {g : Group} (h : l.group = g) : laneShare (some l) g = l.users := if_pos h

theorem laneUsers_none {t : Lanes} {g : Group} (h : NoLaneFor t g) : laneUsers t g = 0 := by
  have hz : ∀ i, laneShare (t.get i) g = 0 := by
    intro i
    cases hi : t.get i with
    | none => rfl
    | some l => exact laneShare_other (h i l hi)
  simp [laneUsers_eq, hz]

theorem laneUsers_empty (g : Group) : laneUsers (Vector.replicate 4 none) g = 0 :=
  laneUsers_none fun i l h => by rw [get_replicate] at h; cases h

/-- No two lanes carry one group, so a group's users are those of its lane. -/
theorem LanesApart.users {t : Lanes} {i : LaneNo} {l : Lane} (h : LanesApart t) (hi : t.get i = some l) :
    laneUsers t l.group = l.users := by
  have hset := laneUsers_set t i none l.group
  have hnone : NoLaneFor (t.set i none) l.group := by
    intro j m hj hg
    by_cases hij : i = j
    · subst hij; rw [get_set_self] at hj; cases hj
    · rw [get_set_ne _ _ hij] at hj
      exact hij (h.2 i j l m hi hj hg.symm)
  rw [laneUsers_none hnone, hi, laneShare_own rfl] at hset
  simp only [laneShare] at hset
  omega

theorem LanesApart.users_zero {t : Lanes} {g : Group} (h : LanesApart t) : laneUsers t g = 0 ↔ NoLaneFor t g := by
  refine ⟨fun hz i l hi hg => ?_, laneUsers_none⟩
  subst hg
  have := h.1 i l hi
  rw [h.users hi] at hz
  omega

theorem LanesApart.empty : LanesApart (Vector.replicate 4 none) :=
  ⟨fun i l h => (by rw [get_replicate] at h; cases h), fun i j l m h _ _ => by rw [get_replicate] at h; cases h⟩

/-! ### The searches -/

theorem laneCarries_iff {g : Group} {v : Option Lane} : laneCarries g v = true ↔ ∃ l, v = some l ∧ l.group = g := by
  cases v <;> simp [laneCarries]

theorem Lanes.find_some {t : Lanes} {g : Group} {i : LaneNo} (h : t.find g = some i) : ∃ l, t.get i = some l ∧ l.group = g :=
  laneCarries_iff.mp (find_finRange_eq_some.mp h).1

/-- The search finds the one lane of a group. -/
theorem Lanes.find_unique {t : Lanes} {g : Group} {i : LaneNo} {l : Lane} (hi : t.get i = some l) (hg : l.group = g)
    (hu : ∀ j m, t.get j = some m → m.group = g → j = i) : t.find g = some i := by
  cases h : t.find g with
  | none => exact absurd hg (Lanes.find_none.mp h i l hi)
  | some j => obtain ⟨m, hj, hm⟩ := Lanes.find_some h; rw [hu j m hj hm]

theorem Lanes.lowestEmpty_some {t : Lanes} {i : LaneNo} :
    t.lowestEmpty = some i ↔ t.get i = none ∧ ∀ j < i, t.get j ≠ none := by
  unfold Lanes.lowestEmpty
  rw [find_finRange_eq_some]
  simp [Option.isSome_iff_ne_none]

/-! ### Counting and uncounting one group -/

theorem Lanes.count_of_find {t : Lanes} {g : Group} {i : LaneNo} {l : Lane} (h : t.find g = some i) (hi : t.get i = some l) :
    t.count g = t.set i (some { l with users := l.users + 1 }) := by
  unfold Lanes.count
  simp only [h, hi, Option.map_some]

theorem Lanes.count_new {t : Lanes} {g : Group} {i : LaneNo} (h : NoLaneFor t g) (hi : t.lowestEmpty = some i) :
    t.count g = t.set i (some ⟨g, 1⟩) := by
  unfold Lanes.count
  simp only [Lanes.find_none.mpr h, hi]

theorem Lanes.uncount_of_find {t : Lanes} {g : Group} {i : LaneNo} {l : Lane} (h : t.find g = some i)
    (hi : t.get i = some l) : t.uncount g = t.set i l.lower := by
  unfold Lanes.uncount
  simp only [h, hi, Option.bind_some]

theorem Lanes.uncount_none {t : Lanes} {g : Group} (h : NoLaneFor t g) : t.uncount g = t := by
  unfold Lanes.uncount
  simp only [Lanes.find_none.mpr h]

theorem Lane.lower_some {l m : Lane} (h : l.lower = some m) : m.group = l.group ∧ 0 < m.users ∧ l.users = m.users + 1 := by
  unfold Lane.lower at h
  split at h
  · cases h
  · obtain rfl := Option.some.inj h
    exact ⟨rfl, by simp only; omega, by simp only; omega⟩

/-- Uncounting, place by place. -/
theorem LanesApart.uncount_get {t : Lanes} (h : LanesApart t) (g : Group) (i : LaneNo) :
    (t.uncount g).get i = (t.get i).bind fun l => if l.group = g then l.lower else some l := by
  cases hf : t.find g with
  | none =>
    have hn := Lanes.find_none.mp hf
    rw [Lanes.uncount_none hn]
    cases hi : t.get i with
    | none => rfl
    | some l => exact (if_neg (hn i l hi)).symm
  | some j =>
    obtain ⟨m, hj, rfl⟩ := Lanes.find_some hf
    rw [Lanes.uncount_of_find hf hj]
    by_cases hij : j = i
    · subst hij; rw [get_set_self, hj]; exact (if_pos rfl).symm
    · rw [get_set_ne _ _ hij]
      cases hi : t.get i with
      | none => rfl
      | some l => exact (if_neg fun hg => hij (h.2 j i m l hj hi hg.symm)).symm

/-- A place of the table after uncounting held its lane before, of the same group. -/
theorem LanesApart.uncount_some {t : Lanes} (h : LanesApart t) {g : Group} {i : LaneNo} {m : Lane}
    (hm : (t.uncount g).get i = some m) : 0 < m.users ∧ ∃ l, t.get i = some l ∧ l.group = m.group := by
  rw [h.uncount_get] at hm
  cases hi : t.get i with
  | none => rw [hi] at hm; cases hm
  | some l =>
    rw [hi, Option.bind_some] at hm
    split at hm
    · obtain ⟨hg, hu, -⟩ := Lane.lower_some hm
      exact ⟨hu, l, rfl, hg.symm⟩
    · obtain rfl := Option.some.inj hm
      exact ⟨h.1 i l hi, l, rfl, rfl⟩

theorem LanesApart.uncount {t : Lanes} (h : LanesApart t) (g : Group) : LanesApart (t.uncount g) := by
  refine ⟨fun i l hi => (h.uncount_some hi).1, fun i j l m hi hj hg => ?_⟩
  obtain ⟨-, l', hl, hlg⟩ := h.uncount_some hi
  obtain ⟨-, m', hm, hmg⟩ := h.uncount_some hj
  exact h.2 i j l' m' hl hm (hlg.trans (hg.trans hmg.symm))

theorem LanesApart.uncount_users {t : Lanes} (h : LanesApart t) (g g' : Group) :
    laneUsers (t.uncount g) g' + (if g' = g then min 1 (laneUsers t g') else 0) = laneUsers t g' := by
  cases hf : t.find g with
  | none =>
    have hn := Lanes.find_none.mp hf
    rw [Lanes.uncount_none hn]
    split
    · rename_i hg; subst hg; rw [laneUsers_none hn]; rfl
    · rfl
  | some j =>
    obtain ⟨l, hj, rfl⟩ := Lanes.find_some hf
    rw [Lanes.uncount_of_find hf hj]
    have hset := laneUsers_set t j l.lower g'
    have hpos := h.1 j l hj
    have hlow : laneShare l.lower g' = if l.group = g' then l.users - 1 else 0 := by
      unfold Lane.lower laneShare
      split <;> rename_i h1
      · split at h1
        · split <;> omega
        · cases h1
      · split at h1
        · cases h1
        · obtain rfl := Option.some.inj h1; rfl
    rw [hj, hlow] at hset
    by_cases hg : g' = l.group
    · subst hg
      rw [if_pos rfl, h.users hj] at *
      rw [laneShare_own rfl] at hset
      omega
    · rw [if_neg hg]
      rw [laneShare_other (Ne.symm hg), if_neg (Ne.symm hg)] at hset
      omega

/-! ### Counting a group where it finds room -/

/-- There is a lane for the group: its own, or an empty one. -/
def Lanes.RoomFor (t : Lanes) (g : Group) : Prop := NoLaneFor t g → ∃ i, t.get i = none

/-- Counting a group changes one place: the lane that carries it, or an empty one. -/
theorem Lanes.count_cases {t : Lanes} {g : Group} (hr : t.RoomFor g) :
    (∃ i l, t.get i = some l ∧ l.group = g ∧ t.count g = t.set i (some { l with users := l.users + 1 })) ∨
    (NoLaneFor t g ∧ ∃ i, t.get i = none ∧ t.count g = t.set i (some ⟨g, 1⟩)) := by
  cases hf : t.find g with
  | some i =>
    obtain ⟨l, hi, hg⟩ := Lanes.find_some hf
    exact .inl ⟨i, l, hi, hg, Lanes.count_of_find hf hi⟩
  | none =>
    have hn := Lanes.find_none.mp hf
    cases hl : t.lowestEmpty with
    | some i => exact .inr ⟨hn, i, (Lanes.lowestEmpty_some.mp hl).1, Lanes.count_new hn hl⟩
    | none =>
      obtain ⟨i, hi⟩ := hr hn
      unfold Lanes.lowestEmpty at hl
      rw [find_finRange_eq_none] at hl
      have := hl i
      rw [hi] at this; cases this

theorem LanesApart.set {t : Lanes} (h : LanesApart t) {i : LaneNo} {l : Lane} (hu : 0 < l.users)
    (hg : ∀ j m, t.get j = some m → m.group = l.group → j = i) : LanesApart (t.set i (some l)) := by
  constructor
  · intro j m hj
    by_cases hij : i = j
    · subst hij; rw [get_set_self] at hj; obtain rfl := Option.some.inj hj; exact hu
    · rw [get_set_ne _ _ hij] at hj; exact h.1 j m hj
  · intro j k m n hj hk hmn
    by_cases hij : i = j <;> by_cases hik : i = k
    · exact hij.symm.trans hik
    · subst hij
      rw [get_set_self] at hj
      rw [get_set_ne _ _ hik] at hk
      obtain rfl := Option.some.inj hj
      exact (hg k n hk hmn.symm).symm
    · subst hik
      rw [get_set_self] at hk
      rw [get_set_ne _ _ hij] at hj
      obtain rfl := Option.some.inj hk
      exact hg j m hj hmn
    · rw [get_set_ne _ _ hij] at hj
      rw [get_set_ne _ _ hik] at hk
      exact h.2 j k m n hj hk hmn

theorem LanesApart.count {t : Lanes} (h : LanesApart t) {g : Group} (hr : t.RoomFor g) : LanesApart (t.count g) := by
  rcases Lanes.count_cases hr with ⟨i, l, hi, rfl, hc⟩ | ⟨hn, i, hi, hc⟩
  · rw [hc]; exact h.set (by simp) fun j m hj hm => h.2 j i m l hj hi hm
  · rw [hc]; exact h.set (by simp) fun j m hj hm => absurd hm (hn j m hj)

theorem Lanes.count_users {t : Lanes} {g : Group} (hr : t.RoomFor g) (g' : Group) :
    laneUsers (t.count g) g' = laneUsers t g' + if g' = g then 1 else 0 := by
  rcases Lanes.count_cases hr with ⟨i, l, hi, rfl, hc⟩ | ⟨hn, i, hi, hc⟩
  · have hset := laneUsers_set t i (some { l with users := l.users + 1 }) g'
    rw [hc]
    rw [hi] at hset
    by_cases hg : g' = l.group
    · subst hg; rw [laneShare_own rfl, laneShare_own rfl] at hset; rw [if_pos rfl]; simp only at hset; omega
    · rw [laneShare_other (Ne.symm hg), laneShare_other (l := { l with users := l.users + 1 }) (Ne.symm hg)] at hset
      rw [if_neg hg]; omega
  · have hset := laneUsers_set t i (some ⟨g, 1⟩) g'
    rw [hc]
    rw [hi] at hset
    have hnone : laneShare none g' = 0 := rfl
    by_cases hg : g' = g
    · subst hg; rw [laneShare_own rfl, hnone] at hset; rw [if_pos rfl]; simp only at hset; omega
    · rw [laneShare_other (Ne.symm hg), hnone] at hset; rw [if_neg hg]; omega

/-- Counting keeps the lanes of the other groups. -/
theorem Lanes.count_get {t : Lanes} {g : Group} (hr : t.RoomFor g) {i : LaneNo} {l : Lane}
    (hi : t.get i = some l) (hg : l.group ≠ g) : (t.count g).get i = some l := by
  rcases Lanes.count_cases hr with ⟨j, m, hj, hm, hc⟩ | ⟨hn, j, hj, hc⟩
  · have hji : j ≠ i := by rintro rfl; rw [hi] at hj; obtain rfl := Option.some.inj hj; exact hg hm
    rw [hc, get_set_ne _ _ hji, hi]
  · have hji : j ≠ i := by rintro rfl; rw [hi] at hj; cases hj
    rw [hc, get_set_ne _ _ hji, hi]

/-- A group has a lane where its users are counted. -/
theorem LanesApart.count_noLane {t : Lanes} (h : LanesApart t) {g : Group} (hr : t.RoomFor g) (g' : Group) :
    NoLaneFor (t.count g) g' ↔ g' ≠ g ∧ NoLaneFor t g' := by
  rw [← (h.count hr).users_zero, ← h.users_zero, Lanes.count_users hr]
  split <;> simp_all

/-! ### The empty lanes -/

theorem Lanes.emptyCount_four (t : Lanes) :
    t.emptyCount = (if t.get 0 = none then 1 else 0) + (if t.get 1 = none then 1 else 0) + (if t.get 2 = none then 1 else 0) +
      (if t.get 3 = none then 1 else 0) := by
  rw [Lanes.emptyCount_eq]
  simp only [show List.finRange 4 = [0, 1, 2, 3] from rfl, List.filter_cons, List.filter_nil, decide_eq_true_eq]
  split <;> split <;> split <;> split <;> simp_all

theorem Lanes.emptyCount_set (t : Lanes) (i : LaneNo) (v : Option Lane) :
    Lanes.emptyCount (t.set i v) + (if t.get i = none then 1 else 0) = t.emptyCount + if v = none then 1 else 0 := by
  have h : ∀ j : LaneNo, (t.set i v).get j = if i = j then v else t.get j := by
    intro j; split
    · rename_i h; subst h; exact get_set_self _ _ _
    · rename_i h; exact get_set_ne _ _ h
  simp only [Lanes.emptyCount_four, h]
  fin_cases i <;> simp <;> omega

theorem Lanes.exists_empty {t : Lanes} (h : 0 < t.emptyCount) : ∃ i, t.get i = none := by
  rw [Lanes.emptyCount_eq, List.length_pos_iff_exists_mem] at h
  obtain ⟨i, hi⟩ := h
  exact ⟨i, by simpa using hi⟩

/-- Counting a group uses an empty lane where no lane carried it. -/
theorem Lanes.count_empty {t : Lanes} {g : Group} (hr : t.RoomFor g) :
    (t.count g).emptyCount + (if NoLaneFor t g then 1 else 0) = t.emptyCount := by
  rcases Lanes.count_cases hr with ⟨i, l, hi, hg, hc⟩ | ⟨hn, i, hi, hc⟩
  · have := Lanes.emptyCount_set t i (some { l with users := l.users + 1 })
    rw [if_neg fun hn => hn i l hi hg, hc]
    rw [hi] at this
    simpa using this
  · have := Lanes.emptyCount_set t i (some ⟨g, 1⟩)
    rw [if_pos hn, hc]
    rw [hi] at this
    simpa using this

/-! ### Several groups -/

/-- The table has a lane for each of the groups together. -/
def Lanes.RoomForAll (t : Lanes) (gs : List Group) : Prop := (gs.filter fun g => NoLaneFor t g).length ≤ t.emptyCount

theorem Lanes.RoomForAll.head {t : Lanes} {g : Group} {gs : List Group} (h : t.RoomForAll (g :: gs)) : t.RoomFor g := by
  intro hn
  unfold Lanes.RoomForAll at h
  rw [List.filter_cons, if_pos (by simpa using hn)] at h
  exact Lanes.exists_empty (by simp only [List.length_cons] at h; omega)

theorem Lanes.RoomForAll.tail {t : Lanes} {g : Group} {gs : List Group} (ha : LanesApart t) (h : t.RoomForAll (g :: gs))
    (hg : g ∉ gs) : (t.count g).RoomForAll gs := by
  have hr := h.head
  have hempty := Lanes.count_empty hr
  have hfilter : (gs.filter fun g' => NoLaneFor (t.count g) g') = gs.filter fun g' => NoLaneFor t g' := by
    refine List.filter_congr fun g' hg' => ?_
    rw [Bool.eq_iff_iff, decide_eq_true_iff, decide_eq_true_iff, ha.count_noLane hr]
    exact and_iff_right fun hh => hg (hh ▸ hg')
  unfold Lanes.RoomForAll at *
  rw [hfilter]
  rw [List.filter_cons] at h
  split at h
  · rename_i hn; rw [if_pos (by simpa using hn)] at hempty; simp only [List.length_cons] at h; omega
  · rename_i hn; rw [if_neg (by simpa using hn)] at hempty; omega

/-- Counting groups where there is room for them all. -/
theorem LanesApart.countAll {gs : List Group} (hn : gs.Nodup) : ∀ {t : Lanes}, LanesApart t → t.RoomForAll gs →
    LanesApart (gs.foldl Lanes.count t) ∧
    (∀ g, laneUsers (gs.foldl Lanes.count t) g = laneUsers t g + if g ∈ gs then 1 else 0) ∧
    ∀ i l, t.get i = some l → l.group ∉ gs → (gs.foldl Lanes.count t).get i = some l := by
  induction gs with
  | nil => exact fun h _ => ⟨h, fun g => by simp, fun i l hi _ => hi⟩
  | cons g gs ih =>
    intro t ha hr
    obtain ⟨hg, hn⟩ := List.nodup_cons.mp hn
    obtain ⟨h1, h2, h3⟩ := ih hn (ha.count hr.head) (hr.tail ha hg)
    refine ⟨h1, fun g' => ?_, fun i l hi hl => ?_⟩
    · rw [List.foldl_cons, h2, Lanes.count_users hr.head]
      by_cases hgg : g' = g
      · subst hgg; simp [hg]
      · simp [hgg]
    · simp only [List.mem_cons, not_or] at hl
      exact h3 i l (Lanes.count_get hr.head hi hl.1) hl.2

/-- Uncounting groups, place by place and in their users. -/
theorem LanesApart.uncountAll {gs : List Group} (hn : gs.Nodup) : ∀ {t : Lanes}, LanesApart t →
    LanesApart (gs.foldl Lanes.uncount t) ∧
    (∀ g, laneUsers (gs.foldl Lanes.uncount t) g + (if g ∈ gs then min 1 (laneUsers t g) else 0) = laneUsers t g) ∧
    ∀ i, (gs.foldl Lanes.uncount t).get i = (t.get i).bind fun l => if l.group ∈ gs then l.lower else some l := by
  induction gs with
  | nil => exact fun h => ⟨h, fun g => by simp, fun i => by simp⟩
  | cons g gs ih =>
    intro t ha
    obtain ⟨hg, hn⟩ := List.nodup_cons.mp hn
    obtain ⟨h1, h2, h3⟩ := ih hn (ha.uncount g)
    refine ⟨h1, fun g' => ?_, fun i => ?_⟩
    · have h2 := h2 g'
      have hone := ha.uncount_users g g'
      rw [List.foldl_cons]
      by_cases hgg : g' = g
      · subst hgg
        rw [if_neg hg] at h2
        rw [if_pos rfl] at hone
        rw [if_pos (List.mem_cons_self ..)]; omega
      · rw [if_neg hgg] at hone
        have : laneUsers (t.uncount g) g' = laneUsers t g' := hone
        rw [this] at h2
        simpa [hgg] using h2
    · rw [List.foldl_cons, h3, ha.uncount_get]
      cases t.get i with
      | none => rfl
      | some l =>
        simp only [Option.bind_some]
        by_cases hgl : l.group = g
        · rw [if_pos hgl, if_pos (by simp [hgl])]
          cases hlow : l.lower with
          | none => rfl
          | some m =>
            obtain ⟨hm, -⟩ := Lane.lower_some hlow
            exact if_neg (by rw [hm, hgl]; exact hg)
        · rw [if_neg hgl]
          simp [hgl]

/-! ### Set Groups (R19, R55, R56) -/

theorem groupsLeft_mem {xs ys : List Group} {g : Group} : g ∈ groupsLeft xs ys ↔ g ∈ xs ∧ g ∉ ys := by
  simp [groupsLeft]

theorem groupsLeft_nodup {xs ys : List Group} (h : xs.Nodup) : (groupsLeft xs ys).Nodup := h.filter _

theorem presentGroups_nodup {ga gb : Option Group} (h : ga = none ∨ ga ≠ gb) : (presentGroups ga gb).Nodup := by
  cases ga with
  | none => cases gb <;> simp [presentGroups]
  | some g =>
    cases gb with
    | none => simp [presentGroups]
    | some g' =>
      have : g ≠ g' := fun hg => (h.resolve_left (by simp)) (by rw [hg])
      simp [presentGroups, this]

/-- The lanes that the dropped groups leave empty (R55). -/
theorem LanesApart.freed_empty {t : Lanes} (h : LanesApart t) {gs : List Group} (hn : gs.Nodup) :
    (gs.foldl Lanes.uncount t).emptyCount =
      ((List.finRange 4).filter fun i => ∀ l, t.get i = some l → l.group ∈ gs ∧ l.users = 1).length := by
  rw [Lanes.emptyCount_eq]
  congr 2
  funext i
  rw [(h.uncountAll hn).2.2 i, Bool.eq_iff_iff, decide_eq_true_iff, decide_eq_true_iff]
  cases hi : t.get i with
  | none => simp
  | some l =>
    have hpos := h.1 i l hi
    simp only [Option.bind_some, Option.some.injEq, forall_eq']
    by_cases hg : l.group ∈ gs
    · rw [if_pos hg]
      unfold Lane.lower
      simp only [hg, true_and]
      split
      · simp; omega
      · simp; omega
    · simp [hg]

/-- What re-accounting does where the test of R55 passes. -/
theorem LanesApart.regroup {t : Lanes} (h : LanesApart t) {old new : List Group} (ho : old.Nodup) (hn : new.Nodup)
    (hc : t.canRegroup old new = true) :
    LanesApart (t.regroup old new) ∧
    (∀ g, laneUsers (t.regroup old new) g + (if g ∈ old ∧ g ∉ new then min 1 (laneUsers t g) else 0) =
      laneUsers t g + if g ∈ new ∧ g ∉ old then 1 else 0) ∧
    ∀ i l, t.get i = some l → (l.group ∈ old ↔ l.group ∈ new) → (t.regroup old new).get i = some l := by
  obtain ⟨h1, h2, h3⟩ := h.uncountAll (groupsLeft_nodup (ys := new) ho)
  have hroom : ((groupsLeft old new).foldl Lanes.uncount t).RoomForAll (groupsLeft new old) := by
    unfold Lanes.canRegroup at hc
    simp only [decide_eq_true_eq] at hc
    refine le_trans (le_of_eq ?_) hc
    congr 1
    refine List.filter_congr fun g hg => ?_
    rw [Bool.eq_iff_iff, decide_eq_true_iff, Option.isNone_iff_eq_none, Lanes.find_none, ← h1.users_zero, ← h.users_zero]
    have hnot : g ∉ groupsLeft old new := fun hh => (groupsLeft_mem.mp hg).2 (groupsLeft_mem.mp hh).1
    have := h2 g
    rw [if_neg hnot] at this
    rw [← this]; rfl
  obtain ⟨k1, k2, k3⟩ := h1.countAll (groupsLeft_nodup (ys := old) hn) hroom
  refine ⟨k1, fun g => ?_, fun i l hi hiff => k3 i l ?_ ?_⟩
  · have e1 := h2 g
    have e2 := k2 g
    simp only [groupsLeft_mem] at e1 e2
    rw [Lanes.regroup, e2]; omega
  · rw [h3, hi, Option.bind_some, if_neg]
    rw [groupsLeft_mem]; tauto
  · rw [groupsLeft_mem]; tauto

/-- The test of R55 in the words of the claims. -/
theorem LanesApart.canRegroup_iff {t : Lanes} (h : LanesApart t) {old new : List Group} (ho : old.Nodup) :
    t.canRegroup old new = true ↔
      (new.filter fun g => g ∉ old ∧ NoLaneFor t g).length ≤
        ((List.finRange 4).filter fun i => ∀ l, t.get i = some l → l.group ∈ old ∧ l.group ∉ new ∧ l.users = 1).length := by
  have h1 : ((groupsLeft new old).filter fun g => (t.find g).isNone) = new.filter fun g => g ∉ old ∧ NoLaneFor t g := by
    unfold groupsLeft
    rw [List.filter_filter]
    refine List.filter_congr fun g _ => ?_
    rw [Bool.eq_iff_iff, decide_eq_true_iff, Bool.and_eq_true, Option.isNone_iff_eq_none, Lanes.find_none]
    simp [and_comm]
  have h2 := h.freed_empty (groupsLeft_nodup (ys := new) ho)
  simp only [groupsLeft_mem, and_assoc] at h2
  unfold Lanes.canRegroup
  simp only [decide_eq_true_eq, h1, h2]

theorem setGroupsBody_named {ga gb : Option Group} (h : Named s ref e x) (hp : x.posted = none) (ha : ga ≠ some 0)
    (hb : gb ≠ some 0) (hab : ga = none ∨ ga ≠ gb) :
    setGroupsBody ref (groupByte ga) (groupByte gb) s = regroup e x (ga, gb) s := by
  refine withBeltpack_taken h ?_ fun _ => hp
  unfold groups?
  rw [groupByte_of_ne_zero ha, groupByte_of_ne_zero hb]
  have hno : ¬ (ga.isSome && ga == gb) = true := by
    rcases hab with rfl | hab
    · simp
    · simp [hab]
  simp only [if_neg hno]

/-- Set Groups of a beltpack that is in no antenna's lanes. -/
theorem regroup_offAir {g : Option Group × Option Group} (he : s.entry e = some x)
    (htr : ¬ (x.context ≠ none ∨ Unsettled s e)) (hst : x.state ≠ .served) :
    regroup e x g s = .answer [] { s with roster := s.roster.set e (some (x.withGroups g)) } := by
  unfold regroup
  rw [if_neg (mt inTransit_iff.mp htr), State.mapEntry_eq he]
  split
  · contradiction
  · rfl

theorem regroup_served {g : Option Group × Option Group} (he : s.entry e = some x)
    (htr : ¬ (x.context ≠ none ∨ Unsettled s e)) (hst : x.state = .served) (hs : x.serving = some (a, sl)) :
    regroup e x g s =
      if Lanes.canRegroup (s.ant a).lanes (presentGroups x.groupA x.groupB) (presentGroups g.1 g.2) then
        .answer [] { s with
          roster := s.roster.set e (some (x.withGroups g)),
          antennas := s.antennas.set a { s.ant a with
            lanes := Lanes.regroup (s.ant a).lanes (presentGroups x.groupA x.groupB) (presentGroups g.1 g.2) } }
      else .refuse .noLane := by
  unfold regroup
  rw [if_neg (mt inTransit_iff.mp htr)]
  simp only [hst, hs]
  split
  · rw [State.mapEntry_eq (s := s.mapLanes a _) (x := x) he]; rfl
  · rfl

/-- Settles O25: in transit, off air, and at the serving antenna. -/
theorem setGroupsReaccountsTheLanes : Obligations.SetGroupsReaccountsTheLanes := by
  intro s ref e x ga gb hx h hp hga hgb hab
  change ∃ t, hostCommand 0x23 (setGroupsBody ref (groupByte ga) (groupByte gb)) s = .next t ∧ _
  have hbody := setGroupsBody_named (h.atWork 0x23) hp hga hgb hab
  have he : (s.atWork 0x23).entry e = some x := h.1
  by_cases htr : x.context ≠ none ∨ Unsettled s e
  · rw [regroup, if_pos ((inTransit_iff (s := s.atWork 0x23)).mpr htr)] at hbody
    obtain ⟨t, ht, hr⟩ := hostCommand_refused hx hbody
    exact ⟨t, ht, fun _ => hr, fun h1 h2 => absurd htr (by simp [h1, h2]), fun a sl h1 h2 => absurd htr (by simp [h1, h2])⟩
  by_cases hst : x.state = .served
  case neg =>
    rw [regroup_offAir he htr hst] at hbody
    obtain ⟨t, ht, hd, hrest⟩ := hostCommand_doneKept hx hbody
    exact ⟨t, ht, fun hn => absurd hn htr, fun _ _ _ => ⟨hd, hrest⟩, fun a sl _ _ hn => absurd hn hst⟩
  have hnot : ¬ (x.state = .unattached ∨ x.state = .lost) := by rw [hst]; nofun
  by_cases hs : ∃ a sl, x.serving = some (a, sl)
  case neg =>
    exact ⟨_, hostCommand_atWork hx, fun hn => absurd hn htr, fun _ _ hn => absurd hn hnot, fun a sl _ _ _ hn => absurd ⟨a, sl, hn⟩ hs⟩
  case pos =>
    obtain ⟨a, sl, hs⟩ := hs
    rw [regroup_served he htr hst hs] at hbody
    by_cases hc : Lanes.canRegroup (s.ant a).lanes (presentGroups x.groupA x.groupB) (presentGroups ga gb) = true
    · rw [if_pos (by exact hc)] at hbody
      obtain ⟨t, ht, hd, hrest⟩ := hostCommand_doneKept hx hbody
      refine ⟨t, ht, fun hn => absurd hn htr, fun _ _ hn => absurd hn hnot, fun a' sl' _ _ _ hs' hap hxa => ?_⟩
      obtain ⟨rfl, rfl⟩ := Prod.mk.inj (Option.some.inj (hs.symm.trans hs'))
      have ho := presentGroups_nodup hxa
      obtain ⟨r1, r2, r3⟩ := hap.regroup ho (presentGroups_nodup hab) hc
      have hlanes : (t.ant a).lanes = Lanes.regroup (s.ant a).lanes (presentGroups x.groupA x.groupB) (presentGroups ga gb) := by
        rw [hrest, State.ant_mk, get_set_self]; rfl
      refine ⟨fun hlt => absurd ((hap.canRegroup_iff ho).mp hc) (not_le.mpr hlt), fun _ => ⟨hd, ?_, ?_, ?_, ?_⟩⟩
      · rw [hlanes]; exact hrest
      · rw [hlanes]; exact r1
      · rw [hlanes]; exact r2
      · rw [hlanes]; exact r3
    · rw [if_neg (by exact hc)] at hbody
      obtain ⟨t, ht, hr⟩ := hostCommand_refused hx hbody
      refine ⟨t, ht, fun hn => absurd hn htr, fun _ _ hn => absurd hn hnot, fun a' sl' _ _ _ hs' hap hxa => ?_⟩
      obtain ⟨rfl, rfl⟩ := Prod.mk.inj (Option.some.inj (hs.symm.trans hs'))
      exact ⟨fun _ => hr, fun hle => absurd ((hap.canRegroup_iff (presentGroups_nodup hxa)).mpr hle) hc⟩

/-! ### Slots and lanes (R45, R47, R49, R51) -/

/-- Settles O53. -/
theorem slotsAndLanesAreAccounted : Obligations.SlotsAndLanesAreAccounted := by
  refine ⟨fun t g i => ⟨fun l hi hg hu => ?_, fun hn hi hlt => ?_, Lanes.uncount_none⟩, fun s a sl e x groups he => ?_⟩
  · have hf := Lanes.find_unique hi hg hu
    exact ⟨Lanes.count_of_find hf hi, Lanes.uncount_of_find hf hi⟩
  · exact Lanes.count_new hn (Lanes.lowestEmpty_some.mpr ⟨hi, hlt⟩)
  · refine ⟨s.claim_eq a sl e groups, fun h => State.releaseSlot_held he h, State.releaseSlot_not, State.freeSlot_free,
      fun h => State.freeSlot_held he (Slot.entry?_some.mpr h)⟩

end Sys2Proof.Machine
end

section
/-! Frames: the host receiver byte by byte (R163 to R165), the rows of the host commands (12.3), the Notice Queue (R170), the checks and layouts of what the part sends (R150, R151, R163), and the trunk receiver (R152). -/

namespace Sys2Proof.Machine

variable {s t : State} {code kind : Byte} {p : List Byte} {bytes : List Byte} {a : AntennaNo}

/-! ### The host receiver (R163 to R165) -/

/-- A transmitter that the choice leaves idle has nothing to begin. -/
theorem HostLink.choose_still {l : HostLink} (h : l.choose.transmitter = none) : l.choose = l := by
  revert h
  unfold HostLink.choose HostLink.beginReply HostLink.beginNotice
  grind

/-- The choice made while no frame was being received stands when one begins. -/
theorem HostLink.choose_heard {l : HostLink} (hl : l.receiver = .hunting) (bytes : List Byte) :
    HostLink.choose { l.choose with receiver := .inFrame bytes } = { l.choose with receiver := .inFrame bytes } := by
  cases ht : l.choose.transmitter with
  | some f => exact HostLink.choose_busy ht
  | none =>
    have hs := HostLink.choose_still ht
    rw [hs] at ht ⊢
    have hs' := hs
    revert hs'
    unfold HostLink.choose HostLink.beginReply HostLink.beginNotice
    rw [ht]
    grind

/-- The receiver is inside a frame of which it has these bytes after the sync byte. -/
def State.hearing (s : State) (bytes : List Byte) : State := s.wake.mapLink fun l => { l with receiver := .inFrame bytes }

theorem State.hearing_wake (h : s.link.receiver = .hunting) (bytes : List Byte) : (s.hearing bytes).wake = s.hearing bytes := by
  unfold State.wake State.hearing State.mapLink
  simp only [State.wake_link]
  rw [HostLink.choose_heard h]

theorem State.hearing_endHostFrame (h : s.link.receiver = .hunting) (bytes : List Byte) :
    (s.hearing bytes).endHostFrame = s.wake := by
  have hr : s.wake.link.receiver = .hunting := by rw [State.wake_link, HostLink.choose_receiver, h]
  have hl : ({ s.wake.link with receiver := .hunting } : HostLink) = s.wake.link := by rw [← hr]
  show ({ s.wake with link := { s.wake.link with receiver := .hunting } } : State) = s.wake
  rw [hl]

theorem State.endHostFrame_hunting (h : s.link.receiver = .hunting) : s.wake.endHostFrame = s.wake := by
  have hr : s.wake.link.receiver = .hunting := by rw [State.wake_link, HostLink.choose_receiver, h]
  have hl : ({ s.wake.link with receiver := .hunting } : HostLink) = s.wake.link := by rw [← hr]
  show ({ s.wake with link := { s.wake.link with receiver := .hunting } } : State) = s.wake
  rw [hl]

theorem State.hearing_refuse (h : s.link.receiver = .hunting) (bytes : List Byte) (code : Byte) (r : RefusalCode) :
    (s.hearing bytes).refuseHostFrame code r = s.wake.refuseHostFrame code r := by
  unfold State.refuseHostFrame
  rw [State.hearing_endHostFrame h, State.endHostFrame_hunting h]

theorem State.hearing_runCommand (h : s.link.receiver = .hunting) (bytes : List Byte) (code : Byte)
    (body : State → CommandReply) : (s.hearing bytes).runCommand code body = s.wake.runCommand code body := by
  have ha : (s.hearing bytes).accept code = s.wake.accept code := by
    unfold State.accept
    rw [State.hearing_endHostFrame h, State.endHostFrame_hunting h]
  unfold State.runCommand
  rw [State.hearing_refuse h, ha]
  rfl

theorem State.hearing_endCommandFrame (h : s.link.receiver = .hunting) (bytes : List Byte) (code : Byte) (p : List Byte) :
    (s.hearing bytes).endCommandFrame code p = s.wake.endCommandFrame code p := by
  unfold State.endCommandFrame
  split
  · exact State.hearing_refuse h _ _ _
  · exact State.hearing_refuse h _ _ _
  · exact State.hearing_runCommand h _ _ _

theorem execAll_cons_next {i : Instr} {is : List Instr} (h : exec i s = .next t) : execAll (i :: is) s = execAll is t := by
  rw [execAll, h]

theorem execAll_single (i : Instr) (s : State) : execAll [i] s = exec i s := by
  unfold execAll
  cases exec i s <;> rfl

theorem execAll_append {xs ys : List Instr} : ∀ {s : State}, execAll xs s = .next t → execAll (xs ++ ys) s = execAll ys t := by
  induction xs with
  | nil =>
    intro s h
    obtain rfl : s = t := by simpa [execAll] using h
    rfl
  | cons i xs ih =>
    intro s h
    obtain ⟨u, hu⟩ := exec_next i s
    rw [execAll_cons_next hu] at h
    rw [List.cons_append, execAll_cons_next hu]
    exact ih h

/-- The sync byte begins a frame. -/
theorem exec_sync (h : s.link.receiver = .hunting) : exec (.rxdByteTaken 0xC5) s = .next (s.hearing []) := by
  have hr : s.wake.link.receiver = .hunting := by rw [State.wake_link, HostLink.choose_receiver, h]
  show Host.Outcome.next (s.wake.takeRxdByte 0xC5) = _
  rw [State.takeRxdByte, hr]
  rfl

theorem exec_byte (h : s.link.receiver = .hunting) (bytes : List Byte) (b : Byte) :
    exec (.rxdByteTaken b) (s.hearing bytes) = .next ((s.hearing bytes).takeFrameByte (bytes ++ [b])) := by
  show Host.Outcome.next ((s.hearing bytes).wake.takeRxdByte b) = _
  rw [State.hearing_wake h]
  rfl

/-- Bytes that do not end the frame are gathered. -/
theorem exec_gathered (h : s.link.receiver = .hunting) {bytes : List Byte} {b : Byte}
    (hb : ∀ kind code length tail, bytes ++ [b] = kind :: code :: length :: tail →
      length.toNat ≤ 240 ∧ tail.length ≠ length.toNat + 1) :
    exec (.rxdByteTaken b) (s.hearing bytes) = .next (s.hearing (bytes ++ [b])) := by
  rw [exec_byte h]
  unfold State.takeFrameByte
  split
  next kind code length tail heq =>
    obtain ⟨h1, h2⟩ := hb _ _ _ _ heq
    rw [if_neg (by simpa [Config.hostPayloadLimit] using h1), if_neg h2]
    rfl
  next => rfl

/-- The payload of a frame is gathered. -/
theorem execAll_payload (h : s.link.receiver = .hunting) {kind code length : Byte} (hlen : length.toNat ≤ 240) (xs : List Byte) :
    ∀ tail : List Byte, tail.length + xs.length ≤ length.toNat →
      execAll (xs.map .rxdByteTaken) (s.hearing (kind :: code :: length :: tail)) =
        .next (s.hearing (kind :: code :: length :: (tail ++ xs))) := by
  induction xs with
  | nil => intro tail _; simp [execAll]
  | cons x xs ih =>
    intro tail ht
    have hstep : exec (.rxdByteTaken x) (s.hearing (kind :: code :: length :: tail)) =
        .next (s.hearing (kind :: code :: length :: (tail ++ [x]))) := by
      refine exec_gathered h fun k c l tl heq => ?_
      simp only [List.cons_append, List.cons.injEq] at heq
      obtain ⟨-, -, rfl, rfl⟩ := heq
      simp only [List.length_cons] at ht
      exact ⟨hlen, by simp; omega⟩
    rw [List.map_cons, execAll_cons_next hstep, ih _ (by simp at ht ⊢; omega), List.append_assoc]
    rfl

/-- The three bytes before a Length begin no end. -/
theorem execAll_header (h : s.link.receiver = .hunting) (kind code : Byte) :
    execAll ([0xC5, kind, code].map .rxdByteTaken) s = .next (s.hearing [kind, code]) := by
  have short : ∀ {bytes : List Byte} {b : Byte}, bytes.length < 2 →
      exec (.rxdByteTaken b) (s.hearing bytes) = .next (s.hearing (bytes ++ [b])) := by
    intro bytes b hb
    refine exec_gathered h fun k c l tl heq => ?_
    have := congrArg List.length heq
    simp at this; omega
  rw [List.map_cons, execAll_cons_next (exec_sync h), List.map_cons, execAll_cons_next (short (by simp)), List.map_cons,
    execAll_cons_next (short (by simp))]
  rfl

/-- The last byte of a frame. -/
theorem exec_check (h : s.link.receiver = .hunting) {length check : Byte} {payload : List Byte} (hlen : length.toNat ≤ 240)
    (hp : payload.length = length.toNat) :
    exec (.rxdByteTaken check) (s.hearing (kind :: code :: length :: payload)) =
      .next ((s.hearing (kind :: code :: length :: payload)).endFrame kind code length (payload ++ [check])) := by
  rw [exec_byte h]
  simp only [List.cons_append, State.takeFrameByte]
  rw [if_neg (by simpa [Config.hostPayloadLimit] using hlen), if_pos (by simp [hp])]

theorem xorAll_concat (xs : List Byte) (b : Byte) : xorAll (xs ++ [b]) = xorAll xs ^^^ b := by simp [xorAll]

/-- The tests at the Check byte, in order (R165). -/
theorem State.hearing_endFrame (h : s.link.receiver = .hunting) (bytes : List Byte) (length check : Byte)
    (payload : List Byte) :
    Host.Outcome.next ((s.hearing bytes).endFrame kind code length (payload ++ [check])) =
      exec (if ([kind, code, length] ++ payload).foldl (· ^^^ ·) 0 ≠ check then .receiveError code .check
          else if kind ≠ 0x51 ∨ commandLengths code = [] then .receiveError code .unknown
          else if payload.length ∉ commandLengths code then .receiveError code .length
          else .commandFrameLost code payload) s := by
  have hx : xorAll (kind :: code :: length :: (payload ++ [check])) ≠ 0 ↔
      ([kind, code, length] ++ payload).foldl (· ^^^ ·) 0 ≠ check := by
    have := xorAll_concat ([kind, code, length] ++ payload) check
    rw [show kind :: code :: length :: (payload ++ [check]) = [kind, code, length] ++ payload ++ [check] by simp, this]
    exact not_congr BitVec.xor_eq_zero_iff
  unfold State.endFrame
  by_cases h1 : xorAll (kind :: code :: length :: (payload ++ [check])) ≠ 0
  · rw [if_pos h1, if_pos (hx.mp h1), State.hearing_refuse h]; rfl
  rw [if_neg h1, if_neg (mt hx.mpr h1)]
  by_cases h2 : kind = 0x51
  case neg => rw [if_pos h2, if_pos (.inl h2), State.hearing_refuse h]; rfl
  rw [if_neg (not_not.mpr h2), State.hearing_endCommandFrame h, List.dropLast_concat]
  have hf := commandOf_fits code payload
  cases hc : commandOf code payload with
  | unknown =>
    rw [hc] at hf
    rw [if_pos (.inr hf), State.endCommandFrame, hc]; rfl
  | badLength =>
    rw [hc] at hf
    rw [if_neg (by rintro (hn | hn); exacts [hn h2, hf.1 hn]), if_pos hf.2, State.endCommandFrame, hc]; rfl
  | command body =>
    rw [hc] at hf
    have hne : commandLengths code ≠ [] := List.ne_nil_of_mem hf
    rw [if_neg (by rintro (hn | hn); exacts [hn h2, hne hn]), if_neg (not_not.mpr (show payload.length ∈ commandLengths code from hf))]; rfl

/-- Settles O32: a frame with its Length in range, one above it, and a byte that begins none. -/
theorem hostBytesSpellTheFrame : Obligations.HostBytesSpellTheFrame := by
  intro s kind code h
  refine ⟨fun payload check hp => ?_, fun length hl => ?_, fun b hb => ?_⟩
  · have hlen : (byte payload.length).toNat = payload.length := byte_toNat (by omega)
    have hlength : exec (.rxdByteTaken (byte payload.length)) (s.hearing [kind, code]) =
        .next (s.hearing [kind, code, byte payload.length]) := by
      refine exec_gathered h fun k c l tl heq => ?_
      simp only [List.cons_append, List.nil_append, List.cons.injEq] at heq
      obtain ⟨-, -, rfl, rfl⟩ := heq
      exact ⟨by rw [hlen]; exact hp, by simp⟩
    rw [show [0xC5, kind, code, byte payload.length] ++ payload ++ [check] =
        [0xC5, kind, code] ++ (byte payload.length :: (payload ++ [check])) by simp, List.map_append,
      execAll_append (execAll_header h kind code), List.map_cons, execAll_cons_next hlength, List.map_append,
      execAll_append (execAll_payload h (by rw [hlen]; exact hp) payload [] (by rw [hlen]; simp)), List.nil_append,
      List.map_singleton, execAll_single, exec_check h (by rw [hlen]; exact hp) hlen.symm]
    exact State.hearing_endFrame h _ _ _ _
  · rw [show [0xC5, kind, code, length] = [0xC5, kind, code] ++ [length] by rfl, List.map_append,
      execAll_append (execAll_header h kind code), List.map_singleton, execAll_single, exec_byte h]
    simp only [List.cons_append, List.nil_append, State.takeFrameByte]
    rw [if_pos (by simpa [Config.hostPayloadLimit] using hl), State.hearing_refuse h]
    rfl
  · have hr : s.wake.link.receiver = .hunting := by rw [State.wake_link, HostLink.choose_receiver, h]
    show Host.Outcome.next (s.wake.takeRxdByte b) = _
    rw [State.takeRxdByte, hr]
    exact congrArg _ (if_neg hb)

/-! ### The rows of the host commands (12.3) -/

theorem id3_extract (id : BeltpackId) : id3 (id.extractLsb' 16 8) (id.extractLsb' 8 8) (id.extractLsb' 0 8) = id := by
  unfold id3
  apply BitVec.eq_of_getLsbD_eq
  intro i hi
  simp only [BitVec.getLsbD_append, BitVec.getLsbD_extractLsb']
  by_cases h1 : i < 8
  · simp [h1]
  · by_cases h2 : i - 8 < 8
    · simp [h1, h2, show 8 + (i - 8) = i by omega]
    · simp [h1, h2, show 16 + (i - 8 - 8) = i by omega, show i - 8 - 8 < 8 by omega]

theorem selection_extract (sel : BitVec 16) : sel.extractLsb' 8 8 ++ sel.extractLsb' 0 8 = sel := by
  apply BitVec.eq_of_getLsbD_eq
  intro i hi
  simp only [BitVec.getLsbD_append, BitVec.getLsbD_extractLsb']
  by_cases h1 : i < 8
  · simp [h1]
  · simp [h1, show 8 + (i - 8) = i by omega, show i - 8 < 8 by omega]

/-- A row is the complete command frame with the code and payload. -/
def Spells (i : Instr) (code : Byte) (p : List Byte) : Prop :=
  ∃ body, commandOf code p = .command body ∧ ∀ s, exec i s = hostCommand code body s

theorem Spells.frame {i : Instr} (h : Spells i code p) (s : State) :
    p.length ∈ commandLengths code ∧ exec i s = exec (.commandFrameLost code p) s := by
  obtain ⟨body, hc, hi⟩ := h
  have hf := commandOf_fits code p
  rw [hc] at hf
  refine ⟨hf, ?_⟩
  rw [hi s]
  show Host.Outcome.next (s.wake.runCommand code body) = Host.Outcome.next (s.wake.endCommandFrame code p)
  rw [State.endCommandFrame, hc]

/-- A command that names a beltpack: by index, and by ID. -/
theorem spells_ref {i : BeltpackRef → Instr} {rest : List Byte} {body : BeltpackRef → State → CommandReply}
    (hc : ∀ b, commandOf code ([b] ++ rest) = .command (body (.compact b)))
    (he : ∀ x y z, commandOf code ([x, y, z] ++ rest) = .command (body (.extended (id3 x y z))))
    (hi : ∀ ref s, exec (i ref) s = hostCommand code (body ref) s) (ref : BeltpackRef) :
    Spells (i ref) code (refBytes ref ++ rest) := by
  cases ref with
  | compact b => exact ⟨_, hc b, hi _⟩
  | extended id => exact ⟨_, he _ _ _, by rw [id3_extract]; exact hi _⟩

/-- The fields of an injected report have a length that a frame can carry. -/
theorem injected_length {fields : List Byte} (h : injectedFields fields = true) (a k : Byte) :
    commandOf 0x16 ([a, k] ++ fields) = .command (injectReportBody a k fields) := by
  simp only [injectedFields, Bool.and_eq_true, decide_eq_true_eq] at h
  match fields, h with
  | [_, _], _ | [_, _, _], _ | [_, _, _, _], _ => rfl
  | [], h | [_], h => simp at h
  | _ :: _ :: _ :: _ :: _ :: _, h => simp only [List.length_cons] at h; omega

theorem injectReportBody_kind {k : Byte} {r : ReportKind} (h : reportKind? k = some r) (a : Byte) (fields : List Byte) :
    injectReportBody a k fields = injectBody a r fields := by
  rw [injectReportBody, h]

/-- Settles O33, row by row. -/
theorem hostCommandIsItsFrame : Obligations.HostCommandIsItsFrame := by
  intro s i code p hf hw
  refine Spells.frame ?_ s
  cases i <;> cases hf
  case identify | readDomainStatus | setLinkRate | fetchNotice | setPolicyItem | readPolicy | trunkStart | trunkStop |
      readAntenna | inServiceAction | drainAction | outOfServiceAction | forceOut | clearAntennaFault | setPortLoopback |
      readQueue | readTransactions => exact ⟨_, rfl, fun _ => rfl⟩
  case setNoticeMode m sel => exact ⟨_, rfl, fun _ => by rw [selection_extract]; rfl⟩
  case injectSighting b p => exact ⟨_, injected_length hw _ _, fun _ => by rw [injectReportBody_kind rfl]; rfl⟩
  case injectSeek b p => exact ⟨_, injected_length hw _ _, fun _ => by rw [injectReportBody_kind rfl]; rfl⟩
  case injectArrival b p => exact ⟨_, injected_length hw _ _, fun _ => by rw [injectReportBody_kind rfl]; rfl⟩
  case injectSignOff b p => exact ⟨_, injected_length hw _ _, fun _ => by rw [injectReportBody_kind rfl]; rfl⟩
  case enrolBeltpack id c a b => exact ⟨_, rfl, fun _ => by rw [id3_extract]; rfl⟩
  case withdrawBeltpack r =>
    exact List.append_nil (refBytes r) ▸ spells_ref (i := .withdrawBeltpack) (fun _ => rfl) (fun _ _ _ => rfl) (fun _ _ => rfl) r
  case readBeltpack r =>
    exact List.append_nil (refBytes r) ▸ spells_ref (i := .readBeltpack) (fun _ => rfl) (fun _ _ _ => rfl) (fun _ _ => rfl) r
  case cancelRequest r =>
    exact List.append_nil (refBytes r) ▸ spells_ref (i := .cancelRequest) (fun _ => rfl) (fun _ _ _ => rfl) (fun _ _ => rfl) r
  case detachBeltpack r =>
    exact List.append_nil (refBytes r) ▸ spells_ref (i := .detachBeltpack) (fun _ => rfl) (fun _ _ _ => rfl) (fun _ _ => rfl) r
  case readConditions r =>
    exact List.append_nil (refBytes r) ▸ spells_ref (i := .readConditions) (fun _ => rfl) (fun _ _ _ => rfl) (fun _ _ => rfl) r
  case setGroups r a b => exact spells_ref (i := (.setGroups · a b)) (fun _ => rfl) (fun _ _ _ => rfl) (fun _ _ => rfl) r
  case setClass r k => exact spells_ref (i := (.setClass · k)) (fun _ => rfl) (fun _ _ _ => rfl) (fun _ _ => rfl) r
  case setPin r v => exact spells_ref (i := (.setPin · v)) (fun _ => rfl) (fun _ _ _ => rfl) (fun _ _ => rfl) r
  case directHandoff r a => exact spells_ref (i := (.directHandoff · a)) (fun _ => rfl) (fun _ _ _ => rfl) (fun _ _ => rfl) r
  case resolveFaultDismiss r =>
    exact spells_ref (i := .resolveFaultDismiss) (fun _ => rfl) (fun _ _ _ => rfl) (fun _ _ => rfl) r
  case resolveFaultRetry r =>
    exact spells_ref (i := .resolveFaultRetry) (fun _ => rfl) (fun _ _ _ => rfl) (fun _ _ => rfl) r
  case resolveFaultNext r =>
    exact spells_ref (i := .resolveFaultNext) (fun _ => rfl) (fun _ _ _ => rfl) (fun _ _ => rfl) r
  case resolveFaultDetach r =>
    exact spells_ref (i := .resolveFaultDetach) (fun _ => rfl) (fun _ _ _ => rfl) (fun _ _ => rfl) r
  case setAdmission r v => exact spells_ref (i := (.setAdmission · v)) (fun _ => rfl) (fun _ _ _ => rfl) (fun _ _ => rfl) r

/-! ### The Notice Queue (R170) -/

theorem HostLink.selects_iff {l : HostLink} {n : Notice} :
    l.selects n = true ↔ n.index = 3 ∨ l.selection.getLsbD n.index = true := by
  simp [HostLink.selects]

/-- Settles O34. -/
theorem noticeIsDroppedPlacedOrDiscarded : Obligations.NoticeIsDroppedPlacedOrDiscarded := by
  intro l n
  unfold HostLink.queueNotice
  rw [← HostLink.selects_iff]
  refine ⟨fun h => if_pos (by simpa using h), fun h hl => ?_, fun h hl => ?_⟩
  · rw [if_neg (by simpa using h), if_neg (by simpa [Config.noticePlaces] using hl)]
  · rw [if_neg (by simpa using h), if_pos (by simpa [Config.noticePlaces] using hl)]

end Sys2Proof.Machine
end

section
/-! What the part sends: the checks and the layouts of its frames (R150, R151, R153, R163, R183). -/

namespace Sys2Proof.Machine

variable {s t : State} {a : AntennaNo}

/-! ### The CRC as a shift register (R151) -/

/-- The shift register is linear. -/
theorem crcBit_xor (v w : BitVec 16) (b c : Bool) : crcBit (v ^^^ w) (b ^^ c) = crcBit v b ^^^ crcBit w c := by
  unfold crcBit
  rw [BitVec.ushiftRight_xor_distrib, BitVec.getLsbD_xor]
  cases v.getLsbD 0 <;> cases w.getLsbD 0 <;> cases b <;> cases c <;>
    simp [BitVec.xor_assoc, BitVec.xor_comm (0x8408#16)]

/-- A register whose lowest bit is the incoming bit shifts. -/
theorem crcBit_own (v : BitVec 16) (k : Nat) : crcBit (v >>> k) (v.getLsbD k) = v >>> (k + 1) := by
  unfold crcBit
  simp [BitVec.shiftRight_add]

/-- Four bits taken, the lowest first. -/
def crcFour (v : BitVec 16) (n : BitVec 4) : BitVec 16 :=
  crcBit (crcBit (crcBit (crcBit v (n.getLsbD 0)) (n.getLsbD 1)) (n.getLsbD 2)) (n.getLsbD 3)

theorem crcFour_xor (v w : BitVec 16) (n m : BitVec 4) : crcFour (v ^^^ w) (n ^^^ m) = crcFour v n ^^^ crcFour w m := by
  simp only [crcFour, BitVec.getLsbD_xor, crcBit_xor]

/-- The table of the products of 0x1081: what four bits do to a register of four bits. -/
theorem crcFour_low : ∀ low n : BitVec 4, crcFour (low.zeroExtend 16) n = (low ^^^ n).zeroExtend 16 * 0x1081 := by decide

/-- A register whose four lowest bits are clear shifts by four. -/
theorem crcFour_high (v : BitVec 16) : crcFour (v >>> 4 <<< 4) 0 = v >>> 4 := by
  have hstep : ∀ k, k < 4 → crcBit ((v >>> 4 <<< 4) >>> k) false = (v >>> 4 <<< 4) >>> (k + 1) := by
    intro k hk
    have hbit : (v >>> 4 <<< 4).getLsbD k = false := by simp [BitVec.getLsbD_shiftLeft, hk]
    rw [← hbit]; exact crcBit_own _ k
  have h0 := hstep 0 (by decide)
  rw [BitVec.ushiftRight_zero] at h0
  have hz : ∀ i, (0 : BitVec 4).getLsbD i = false := by simp
  simp only [crcFour, hz, h0, hstep 1 (by decide), hstep 2 (by decide), hstep 3 (by decide)]
  apply BitVec.eq_of_getLsbD_eq
  intro i hi
  simp only [BitVec.getLsbD_ushiftRight, BitVec.getLsbD_shiftLeft]
  by_cases h : 4 + i < 16
  · simp [h]
  · simp [h, BitVec.getLsbD_of_ge v (4 + i) (by omega)]

theorem high_xor_low (v : BitVec 16) : (v >>> 4 <<< 4) ^^^ (v.extractLsb' 0 4).zeroExtend 16 = v := by
  apply BitVec.eq_of_getLsbD_eq
  intro i hi
  simp only [BitVec.getLsbD_xor, BitVec.getLsbD_shiftLeft, BitVec.getLsbD_ushiftRight, BitVec.truncate_eq_setWidth,
    BitVec.getLsbD_setWidth, BitVec.getLsbD_extractLsb']
  by_cases h : i < 4
  · simp [h, hi]
  · simp [h, hi, show 4 + (i - 4) = i by omega]

theorem crcNibble_eq (v : BitVec 16) (n : BitVec 4) : crcNibble v n = crcFour v n := by
  have h := crcFour_xor (v >>> 4 <<< 4) ((v.extractLsb' 0 4).zeroExtend 16) 0 n
  rw [high_xor_low, show (0 : BitVec 4) ^^^ n = n from BitVec.zero_xor, crcFour_high, crcFour_low] at h
  rw [h]; rfl

theorem crcByte_eq (v : BitVec 16) (b : Byte) :
    crcByte v b = (List.range 8).foldl (fun v n => crcBit v (b.getLsbD n)) v := by
  simp only [crcByte, crcNibble_eq, crcFour, BitVec.getLsbD_extractLsb']
  rfl

/-- Eight bits of `v` from bit `k` on, taken by a register that holds `v` shifted by `k`. -/
theorem crcByte_own (v : BitVec 16) (k : Nat) : crcByte (v >>> k) (v.extractLsb' k 8) = v >>> (k + 8) := by
  have hbit : ∀ n < 8, (v.extractLsb' k 8).getLsbD n = v.getLsbD (k + n) := fun n hn => by
    simp [hn]
  have hstep : ∀ n < 8, crcBit (v >>> (k + n)) ((v.extractLsb' k 8).getLsbD n) = v >>> (k + n + 1) := fun n hn => by
    rw [hbit n hn]; exact crcBit_own v (k + n)
  rw [crcByte_eq]
  simp only [show List.range 8 = [0, 1, 2, 3, 4, 5, 6, 7] from rfl, List.foldl_cons, List.foldl_nil]
  have h0 := hstep 0 (by decide)
  rw [Nat.add_zero] at h0
  simp only [h0, hstep 1 (by decide), hstep 2 (by decide), hstep 3 (by decide), hstep 4 (by decide), hstep 5 (by decide),
    hstep 6 (by decide), hstep 7 (by decide)]

/-- The low check byte, and then the high one, shift the register out. -/
theorem crcByte_low (v : BitVec 16) : crcByte v (v.extractLsb' 0 8) = v >>> 8 := by
  have h := crcByte_own v 0
  rwa [BitVec.ushiftRight_zero] at h

theorem crcByte_high (v : BitVec 16) : crcByte (v >>> 8) (v.extractLsb' 8 8) = 0 := by
  rw [crcByte_own]
  apply BitVec.eq_of_getLsbD_eq
  intro i hi
  simp [BitVec.getLsbD_ushiftRight]

theorem crc_append (xs ys : List Byte) : crc (xs ++ ys) = ys.foldl crcByte (crc xs) := by simp [crc]

/-- The residue of bytes and their check is zero. -/
theorem crc_check (xs : List Byte) : crc (xs ++ checkBytes (crc xs)) = 0 := by
  rw [crc_append]
  simp only [checkBytes, List.foldl_cons, List.foldl_nil, crcByte_low, crcByte_high]

/-! ### Layouts (R183, 12.5) -/

theorem optionByte_eq {n : Nat} (v : Option (Fin n)) : optionByte v = optionalField v := by cases v <;> rfl
theorem groupByte_eq (g : Option Group) : groupByte g = groupField g := by cases g <;> rfl
theorem Condition.code_eq (k : Condition) : k.code = conditionField k := by cases k <;> rfl
theorem Cause.byte_rank (k : Cause) : byte k.rank = causeField k := by cases k <;> rfl
theorem RefusalCode.code_eq (r : RefusalCode) : r.code = refusalField r := by cases r <;> rfl
theorem Kind.byte_code (k : Kind) : byte k.code = match k with | .move => 0 | .summon => 1 | .attach => 2 := by
  cases k <;> rfl
theorem Disposition.byte_code (k : Disposition) :
    byte k.code = match k with | .ended => 0 | .next => 1 | .reEnter => 2 | .convert => 3 := by cases k <;> rfl
theorem UnattachedReason.byte_code (r : UnattachedReason) :
    byte r.code = match r with | .window => 0 | .signOff => 1 | .detach => 2 := by cases r <;> rfl

theorem Notice.frame_eq (n : Notice) : n.frame = ⟨.notice, (noticeLayout n).1, (noticeLayout n).2⟩ := by
  have hframe : ∀ p, n.payload = p → n.code = (noticeLayout n).1 → p = (noticeLayout n).2 →
      n.frame = ⟨.notice, (noticeLayout n).1, (noticeLayout n).2⟩ := by
    rintro p rfl h1 h2
    rw [Notice.frame, h1, h2]
  refine hframe _ rfl (by cases n <;> rfl) ?_
  cases n <;> simp only [Notice.payload, noticeLayout, optionByte_eq, Condition.code_eq, Cause.byte_rank, Kind.byte_code,
    LinkState.byte_code, AdminState.byte_code, LoopbackMode.byte_code, Disposition.byte_code, UnattachedReason.byte_code,
    flagByte, identity] <;> rfl

theorem Sent.frame_eq (x : Sent) : x.frame = trunkFrame (sentLayout x).1 (sentLayout x).2 := by
  cases x with
  | probe => rfl
  | order o =>
    obtain ⟨body, id, sl, who⟩ := o
    cases body with
    | reserve ga gb => simp only [Sent.frame, sentLayout, Order.payload, groupByte_eq]; rfl
    | cue _ | summon | release => rfl

theorem State.txLine_none (h : (s.ant a).loopback ≠ .off ∨ (s.port a).inFlight = none) : s.txLine a = [] := by
  unfold State.txLine
  split
  · rename_i hm hx
    rcases h with h | h
    · exact absurd hm h
    · rw [h] at hx; cases hx
  · rfl

/-- Settles O35. -/
theorem everyFrameCarriesItsCheck : Obligations.EveryFrameCarriesItsCheck := by
  refine ⟨fun f => ⟨f.kind.code, xorAll f.checked, ?_, ?_, ?_⟩, fun type payload => ?_, crcByte_eq, Notice.frame_eq,
    fun code r => ?_, Sent.frame_eq, fun s => ⟨fun h => ?_, fun f h => ?_, fun a => ⟨State.txLine_none, fun x hm hx => ?_⟩⟩⟩
  · cases f.kind <;> rfl
  · simp [HostFrame.bytes, HostFrame.checked]
  · have h : f.bytes.drop 1 = f.checked ++ [xorAll f.checked] := by simp [HostFrame.bytes]
    rw [h]
    exact (xorAll_concat _ _).trans BitVec.xor_self
  · refine ⟨_, _, ?_, crc_check ([type, byte payload.length] ++ payload)⟩
    simp [trunkFrame, checkBytes]
  · simp [refusalFrame, RefusalCode.code_eq]
  · rw [State.txd, h]
  · rw [State.txd, h]
  · rw [State.txLine, hm, hx]

end Sys2Proof.Machine
end

section
/-! Frames from the trunk lines (R40, R150 to R152). -/

namespace Sys2Proof.Machine

variable {s t : State} {a : AntennaNo}

/-! ### The trunk receiver, byte by byte -/

theorem HostLink.choose_choose (l : HostLink) : l.choose.choose = l.choose := by
  cases ht : l.choose.transmitter with
  | some f => exact HostLink.choose_busy ht
  | none => rw [HostLink.choose_still ht, HostLink.choose_still ht]

/-- The receiver of a port is inside a frame of which it has these bytes after the lead byte. -/
def State.tuned (s : State) (a : AntennaNo) (bytes : List Byte) : State :=
  s.wake.mapPort a fun p => { p with receiver := .inFrame bytes }

theorem State.tuned_wake (s : State) (a : AntennaNo) (bytes : List Byte) : (s.tuned a bytes).wake = s.tuned a bytes := by
  show ({ s.tuned a bytes with link := s.link.choose.choose } : State) = _
  rw [HostLink.choose_choose]; rfl

theorem State.tuned_again (s : State) (a : AntennaNo) (bytes bytes' : List Byte) :
    ((s.tuned a bytes).mapPort a fun p => { p with receiver := .inFrame bytes' }) = s.tuned a bytes' := by
  simp only [State.tuned, State.mapPort, State.port, get_set_self, set_set]

theorem State.tuned_fromLine (s : State) (a : AntennaNo) (bytes : List Byte) (hl : (s.ant a).loopback = .off)
    (f : State → State) : (s.tuned a bytes).fromLine a f = s.wake.fromLine a f := by
  have h : (s.tuned a bytes).endTrunkFrame a = s.wake.endTrunkFrame a := by
    simp only [State.endTrunkFrame, State.tuned, State.mapPort, State.port, get_set_self, set_set]
  unfold State.fromLine
  rw [h, if_pos (show ((s.tuned a bytes).ant a).loopback = .off from hl), if_pos (show (s.wake.ant a).loopback = .off from hl)]

theorem exec_trunkByte (hl : (s.ant a).loopback = .off) (bytes : List Byte) (b : Byte) :
    exec (.trunkRxByte a b) (s.tuned a bytes) = .next ((s.tuned a bytes).takeTrunkFrameByte a (bytes ++ [b])) := by
  show Host.Outcome.next ((s.tuned a bytes).wake.takeTrunkByte a b) = _
  have hr : ((s.tuned a bytes).port a).receiver = .inFrame bytes := by rw [State.tuned, State.port_mapPort_self]
  rw [State.tuned_wake, State.takeTrunkByte, if_neg (not_not.mpr (show ((s.tuned a bytes).ant a).loopback = .off from hl)), hr]

theorem exec_lead (hl : (s.ant a).loopback = .off) (hr : (s.port a).receiver = .hunting) :
    exec (.trunkRxByte a 0xD3) s = .next (s.tuned a []) := by
  show Host.Outcome.next (s.wake.takeTrunkByte a 0xD3) = _
  rw [State.takeTrunkByte, if_neg (not_not.mpr (show (s.wake.ant a).loopback = .off from hl)),
    show (s.wake.port a).receiver = .hunting from hr]
  rfl

/-- Bytes that do not end the frame are gathered. -/
theorem exec_trunkGathered (hl : (s.ant a).loopback = .off) {bytes : List Byte} {b : Byte}
    (hb : ∀ type length tail, bytes ++ [b] = type :: length :: tail →
      length.toNat ≤ 16 ∧ tail.length ≠ length.toNat + 2) :
    exec (.trunkRxByte a b) (s.tuned a bytes) = .next (s.tuned a (bytes ++ [b])) := by
  rw [exec_trunkByte hl]
  unfold State.takeTrunkFrameByte
  split
  next type length tail heq =>
    obtain ⟨h1, h2⟩ := hb _ _ _ heq
    rw [if_neg (by simpa [Config.trunkPayloadLimit] using h1), if_neg h2, State.tuned_again]
  next => rw [State.tuned_again]

theorem execAll_trunkTail (hl : (s.ant a).loopback = .off) {type length : Byte} (hlen : length.toNat ≤ 16) (xs : List Byte) :
    ∀ tail : List Byte, tail.length + xs.length < length.toNat + 2 →
      execAll (xs.map (.trunkRxByte a)) (s.tuned a (type :: length :: tail)) =
        .next (s.tuned a (type :: length :: (tail ++ xs))) := by
  induction xs with
  | nil => intro tail _; simp [execAll]
  | cons x xs ih =>
    intro tail ht
    have hstep : exec (.trunkRxByte a x) (s.tuned a (type :: length :: tail)) =
        .next (s.tuned a (type :: length :: (tail ++ [x]))) := by
      refine exec_trunkGathered hl fun k l tl heq => ?_
      simp only [List.cons_append, List.cons.injEq] at heq
      obtain ⟨-, rfl, rfl⟩ := heq
      simp only [List.length_cons] at ht
      exact ⟨hlen, by simp; omega⟩
    rw [List.map_cons, execAll_cons_next hstep, ih _ (by simp at ht ⊢; omega), List.append_assoc]
    rfl

/-- The lead byte and the Type. -/
theorem execAll_trunkHeader (hl : (s.ant a).loopback = .off) (hr : (s.port a).receiver = .hunting) (type : Byte) :
    execAll ([0xD3, type].map (.trunkRxByte a)) s = .next (s.tuned a [type]) := by
  have htype : exec (.trunkRxByte a type) (s.tuned a []) = .next (s.tuned a [type]) :=
    exec_trunkGathered hl fun _ _ _ heq => by simp at heq
  rw [List.map_cons, execAll_cons_next (exec_lead hl hr), List.map_cons, execAll_cons_next htype]
  rfl

/-- A frame with its Length in range, up to its end. -/
theorem execAll_trunkFrame (hl : (s.ant a).loopback = .off) (hr : (s.port a).receiver = .hunting) (type low high : Byte)
    {payload : List Byte} (hp : payload.length ≤ 16) :
    execAll (([0xD3, type, byte payload.length] ++ payload ++ [low, high]).map (.trunkRxByte a)) s =
      .next ((s.tuned a (type :: byte payload.length :: (payload ++ [low]))).endReceivedFrame a type (byte payload.length)
        (payload ++ [low, high])) := by
  have hlen : (byte payload.length).toNat = payload.length := byte_toNat (by omega)
  have hlength : exec (.trunkRxByte a (byte payload.length)) (s.tuned a [type]) = .next (s.tuned a [type, byte payload.length]) := by
    refine exec_trunkGathered hl fun k l tl heq => ?_
    simp only [List.cons_append, List.nil_append, List.cons.injEq] at heq
    obtain ⟨-, rfl, rfl⟩ := heq
    exact ⟨by rw [hlen]; exact hp, by simp⟩
  rw [show [0xD3, type, byte payload.length] ++ payload ++ [low, high] =
      [0xD3, type] ++ (byte payload.length :: ((payload ++ [low]) ++ [high])) by simp, List.map_append,
    execAll_append (execAll_trunkHeader hl hr type), List.map_cons, execAll_cons_next hlength, List.map_append,
    execAll_append (execAll_trunkTail hl (by rw [hlen]; exact hp) (payload ++ [low]) [] (by rw [hlen]; simp)), List.nil_append,
    List.map_singleton, execAll_single, exec_trunkByte hl]
  simp only [List.cons_append, State.takeTrunkFrameByte, List.append_assoc, List.nil_append]
  rw [if_neg (by rw [hlen]; simpa [Config.trunkPayloadLimit] using hp), if_pos (by rw [hlen]; simp)]

/-! ### Replies, reports and bad frames -/

theorem reportKind?_lengths {type : Byte} {k : ReportKind} {p : List Byte} {r : Report} (hk : reportKind? type = some k)
    (hr : report? k p = some r) : p.length ∈ lineLengths type := by
  unfold reportKind? at hk
  unfold lineLengths
  split at hk
  case h_5 => cases hk
  all_goals
    rename_i htype
    obtain rfl := Option.some.inj hk
    simp only [htype]
    unfold report? at hr
    split at hr <;> simp_all

/-- A payload that is not of the Type's length makes a bad frame. -/
theorem trunkFrameOf_bad {type : Byte} {p : List Byte} (h : p.length ∉ lineLengths type) : trunkFrameOf type p = .bad := by
  unfold trunkFrameOf
  split
  next htype => exact absurd (by simp [lineLengths, htype]) h
  next htype => exact absurd (by simp [lineLengths, htype]) h
  next htype => exact absurd (by simp [lineLengths, htype]) h
  next =>
    split
    next k hk =>
      unfold reportFrame
      split
      next r hr => exact absurd (reportKind?_lengths hk hr) h
      next => rfl
    next => rfl

/-- What a row of the line is, as a frame that its port takes. -/
def TakenAs (i : Instr) (a : AntennaNo) (type : Byte) (p : List Byte) : Prop :=
  p.length ≤ 16 ∧ ∃ fr, trunkFrameOf type p = fr ∧ ∀ s, exec i s = .next (match fr with
    | .reply r => s.wake.lineReply a r
    | .report r => s.wake.lineReport a r
    | .bad => s.wake.takeBadFrame a)

theorem lineFrame_taken {i : Instr} {type : Byte} {p : List Byte} (h : lineFrame i = some (a, type, p)) : TakenAs i a type p := by
  unfold lineFrame at h
  split at h <;> cases h
  case h_1 => exact ⟨by simp, _, rfl, fun _ => rfl⟩
  case h_4 => exact ⟨by simp, _, rfl, fun _ => rfl⟩
  case h_2 ty id sl =>
    exact ⟨by simp [refBytes], _, congrArg (fun id => TrunkFrame.reply (.ack ty id sl)) (id3_extract id), fun _ => rfl⟩
  case h_3 ty id sl r =>
    exact ⟨by simp [refBytes], _, congrArg (fun id => TrunkFrame.reply (.refuse ty id sl)) (id3_extract id), fun _ => rfl⟩
  case h_5 id q =>
    exact ⟨by simp [refBytes], _, congrArg (fun id => TrunkFrame.report (.sighting (.extended id q))) (id3_extract id),
      fun _ => rfl⟩
  case h_6 id q =>
    exact ⟨by simp [refBytes], _, congrArg (fun id => TrunkFrame.report (.seek id q)) (id3_extract id), fun _ => rfl⟩
  case h_7 id sl =>
    exact ⟨by simp [refBytes], _, congrArg (fun id => TrunkFrame.report (.arrival id sl)) (id3_extract id), fun _ => rfl⟩
  case h_8 id =>
    exact ⟨by simp [refBytes], _, congrArg (fun id => TrunkFrame.report (.signOff id)) (id3_extract id), fun _ => rfl⟩

theorem State.tuned_badFrame (hl : (s.ant a).loopback = .off) (bytes : List Byte) :
    (s.tuned a bytes).takeBadFrame a = s.wake.takeBadFrame a := State.tuned_fromLine s a bytes hl _

/-- The frame that has ended at a good residue. -/
theorem State.tuned_endReceivedFrame (hl : (s.ant a).loopback = .off) (bytes : List Byte) {type low high : Byte}
    {p : List Byte} (hp : p.length ≤ 16) (hc : crc ([type, byte p.length] ++ p ++ [low, high]) = 0) :
    (s.tuned a bytes).endReceivedFrame a type (byte p.length) (p ++ [low, high]) =
      match trunkFrameOf type p with
      | .reply r => s.wake.lineReply a r
      | .report r => s.wake.lineReport a r
      | .bad => s.wake.takeBadFrame a := by
  have hlen : (byte p.length).toNat = p.length := byte_toNat (by omega)
  unfold State.endReceivedFrame
  rw [if_neg (not_not.mpr (by simpa using hc)), hlen, List.take_left']
  · cases trunkFrameOf type p with
    | reply r => exact State.tuned_fromLine s a bytes hl _
    | report r => exact State.tuned_fromLine s a bytes hl _
    | bad => exact State.tuned_fromLine s a bytes hl _
  · rfl

/-- Settles O36: frames with a row, frames of another check or length, a Length above 16, and a byte that begins none. -/
theorem trunkBytesSpellTheFrame : Obligations.TrunkBytesSpellTheFrame := by
  intro s a hr
  refine ⟨fun hl => ⟨fun i type p hi => ?_, fun type low high p hp hbad => ?_, fun type length hlen => ?_, fun b hb => ?_⟩,
    fun hl b => ?_⟩
  · obtain ⟨hp, fr, hfr, hexec⟩ := lineFrame_taken hi
    have hbytes : trunkFrame type p = [0xD3, type, byte p.length] ++ p ++ checkBytes (crc ([type, byte p.length] ++ p)) := by
      simp [trunkFrame]
    rw [hbytes, hexec s, checkBytes, execAll_trunkFrame hl hr _ _ _ hp,
      State.tuned_endReceivedFrame hl _ hp (crc_check ([type, byte p.length] ++ p)), hfr] <;> rfl
  · rw [execAll_trunkFrame hl hr _ _ _ hp]
    show _ = Host.Outcome.next (s.wake.takeBadFrame a)
    by_cases hc : crc ([type, byte p.length] ++ p ++ [low, high]) = 0
    · rw [State.tuned_endReceivedFrame hl _ hp hc, trunkFrameOf_bad (hbad.resolve_left (not_not.mpr hc))]
    · rw [State.endReceivedFrame, if_pos (by simpa using hc), State.tuned_badFrame hl]
  · rw [show [0xD3, type, length] = [0xD3, type] ++ [length] by rfl, List.map_append,
      execAll_append (execAll_trunkHeader hl hr type), List.map_singleton, execAll_single, exec_trunkByte hl]
    simp only [List.cons_append, List.nil_append, State.takeTrunkFrameByte]
    rw [if_pos (by simpa [Config.trunkPayloadLimit] using hlen), State.tuned_badFrame hl]
    rfl
  · show Host.Outcome.next (s.wake.takeTrunkByte a b) = _
    rw [State.takeTrunkByte, if_neg (not_not.mpr (show (s.wake.ant a).loopback = .off from hl)),
      show (s.wake.port a).receiver = .hunting from hr]
    exact congrArg _ (if_neg hb)
  · show Host.Outcome.next (s.wake.takeTrunkByte a b) = _
    rw [State.takeTrunkByte, if_pos (show (s.wake.ant a).loopback ≠ .off from hl)]

theorem State.fromLine_off (hl : (s.ant a).loopback = .off) (f : State → State) : s.wake.fromLine a f = f (s.heard a) := by
  rw [State.fromLine, if_pos (show (s.wake.ant a).loopback = .off from hl)]; rfl

theorem State.fromLine_looped (hl : (s.ant a).loopback ≠ .off) (f : State → State) : s.wake.fromLine a f = s.wake := by
  rw [State.fromLine, if_neg (show (s.wake.ant a).loopback ≠ .off from hl)]

/-- Settles O37. -/
theorem badTrunkFrameSetsTheFlag : Obligations.BadTrunkFrameSetsTheFlag := by
  intro s a
  refine ⟨fun hl => congrArg _ (State.fromLine_looped hl _), fun hl => ?_, fun hr => ?_, fun bytes hr => ?_⟩
  · show Host.Outcome.next (s.wake.takeBadFrame a) = _
    rw [State.takeBadFrame, State.fromLine_off hl, State.latchTrunkErrors]
    have hflags : (s.heard a).link.flags = s.link.flags := HostLink.choose_flags _
    rw [← hflags]; rfl
  · have hr' : (s.wake.port a).receiver = .hunting := hr
    show Host.Outcome.next (match (s.wake.port a).receiver with | .hunting => s.wake | .inFrame _ => s.wake.takeBadFrame a) = _
    rw [hr']
  · have hr' : (s.wake.port a).receiver = .inFrame bytes := hr
    show Host.Outcome.next (match (s.wake.port a).receiver with | .hunting => s.wake | .inFrame _ => s.wake.takeBadFrame a) = _
    rw [hr']
    rfl

end Sys2Proof.Machine
end

section
/-! Exchanges at a port: how they begin (R154, R155, R160), end by a reply or a timeout (R29 to R32, R156, R157), and what their outcome does at the poster (R50, R95 to R99). -/

namespace Sys2Proof.Machine

variable {s t u : State} {a b : AntennaNo} {c : ContextNo} {y : Context} {x : Entry} {z : Entry} {e : EntryNo} {sl bsl : SlotNo}
  {o : Order} {w : OrderOutcome}

/-! ### Beginning an exchange (R154, R155) -/

theorem Port.post_eq (p : Port) (o : Order) :
    p.post o = if p.fifo.length < 6 ∧ p.waiting = [] then { p with fifo := p.fifo ++ [o] }
      else { p with waiting := p.waiting ++ [o] } := by
  unfold Port.post
  have : (decide (p.fifo.length < Config.fifoPlaces) && p.waiting.isEmpty) = true ↔ p.fifo.length < 6 ∧ p.waiting = [] := by
    rw [Bool.and_eq_true, decide_eq_true_iff, List.isEmpty_iff]; rfl
  by_cases h : p.fifo.length < 6 ∧ p.waiting = []
  · rw [if_pos h, if_pos (this.mpr h)]
  · rw [if_neg h, if_neg (mt this.mp h)]

theorem Port.placeWaiting_not {p : Port} (h : p.waiting = [] ∨ 6 ≤ p.fifo.length) : p.placeWaiting = p := by
  unfold Port.placeWaiting
  split
  · rfl
  · rename_i o ws hw
    rw [if_neg]
    rcases h with h | h
    · rw [h] at hw; cases hw
    · simp only [Config.fifoPlaces]; omega

theorem Port.probeInFlight_eq (p : Port) : p.probeInFlight = decide (p.inFlight.map Exchange.sent = some .probe) := by
  unfold Port.probeInFlight
  cases hx : p.inFlight with
  | none => simp
  | some v => obtain ⟨_ | o, d, r⟩ := v <;> simp

/-- Settles O39, row by row. -/
theorem portsBeginTheirExchanges : Obligations.PortsBeginTheirExchanges := by
  intro s a
  refine ⟨rfl, fun h => ?_, fun hr hf hd => ?_, fun o os hr hf hd ho hlen => ?_, fun o => ?_, fun o os hw hlen => ?_,
    fun h => ?_, fun h => ?_, fun h => ?_⟩
  · rw [State.beginExchange_eq, Port.begin_idle h, show s.port a = s.ports.get a from rfl, set_get]
  · rw [State.beginExchange_eq, hr, Port.begin_probe hf hd, responderReply_eq]
  · rw [State.beginExchange_eq, hr, Port.begin_order hf hd ho, responderReply_eq, Port.placeWaiting_room]
    · rfl
    · rw [ho] at hlen; simp only [List.length_cons] at hlen; simp only; omega
  · rw [State.postOrder, State.mapPort, Port.post_eq]
  · show Host.Outcome.next ((s.wake.mapPort a Port.placeWaiting).beginExchange a) = _
    have hp : (s.wake.port a).placeWaiting = { s.port a with fifo := (s.port a).fifo ++ [o], waiting := os } := by
      rw [show s.wake.port a = s.port a from rfl, Port.placeWaiting_room hlen, hw]; rfl
    rw [State.mapPort, hp]; rfl
  · show Host.Outcome.next ((s.wake.mapPort a Port.placeWaiting).beginExchange a) = _
    rw [State.mapPort, show s.wake.port a = s.port a from rfl, Port.placeWaiting_not h,
      show s.wake.ports.set a (s.port a) = s.wake.ports from set_get _ _]
    rfl
  · show Host.Outcome.next ((s.wake.mapPort a (·.expireProbeTimer s.wake.probeInterval)).beginExchange a) = _
    have hp : (s.wake.port a).expireProbeTimer s.wake.probeInterval = { s.port a with
        probeTimer := some ((s.policy.get 8).toNat * 10),
        probeDue := (s.port a).probeDue || decide ((s.port a).inFlight.map Exchange.sent ≠ some .probe) } := by
      obtain ⟨ms, hms⟩ := Option.ne_none_iff_exists'.mp h
      rw [Port.expireProbeTimer, show (s.wake.port a).probeTimer = some ms from hms, Port.probeInFlight_eq, decide_not]
      rfl
    rw [State.mapPort, hp]; rfl
  · show Host.Outcome.next ((s.wake.mapPort a (·.expireProbeTimer s.wake.probeInterval)).beginExchange a) = _
    have hp : (s.wake.port a).expireProbeTimer s.wake.probeInterval = s.wake.ports.get a := by
      rw [Port.expireProbeTimer, show (s.wake.port a).probeTimer = none from h]; rfl
    rw [State.mapPort, hp, set_get]; rfl

/-! ### Outcomes at the poster (R50, R95 to R99, R102) -/

theorem State.giveOutcome_context (h : o.poster = .context c) :
    s.giveOutcome a o w = match w with
      | .acked => s.ackOutcome c
      | .refused => s.dispose c 0x10
      | .timedOut => s.dispose c 0x04 := by
  rw [State.giveOutcome, h]
  cases w <;> rfl

theorem State.postCue_eq (hc : s.ctx c = some y) (hs : y.source = some (b, bsl)) (ht : y.target = some a)
    (hsl : y.targetSlot = some sl) (he : s.entry y.entry = some z) :
    s.postCue c =
      State.postOrder { s with contexts := s.contexts.set c (some { y with phase := .cue, awaited := some ⟨.cue, b⟩ }) } b
        ⟨.cue a, z.id, sl, .context c⟩ := by
  have h1 : ({ s with contexts := s.contexts.set c (some { y with phase := .cue }) } : State).ctx c =
      some { y with phase := .cue } := get_set_self _ _ _
  have hcue : s.postCue c = (s.mapCtx c fun x => { x with phase := .cue }).postAwaited c b ⟨.cue a, z.id, sl, .context c⟩ := by
    unfold State.postCue
    rw [hc]
    simp only
    rw [hs, ht, hsl, he]
  rw [hcue, State.mapCtx_eq hc, State.postAwaited_eq h1]
  simp only [set_set]
  rfl

/-- The Ack of a Reserve of a Move: a Cue to the source. -/
theorem State.ackOutcome_cue (hc : s.ctx c = some y) (hp : y.phase = .reserve) (hk : y.kind = .move)
    (hs : y.source = some (b, bsl)) (ht : y.target = some a) (hsl : y.targetSlot = some sl) (he : s.entry y.entry = some z) :
    s.ackOutcome c =
      State.postOrder { s with contexts := s.contexts.set c (some { y with phase := .cue, awaited := some ⟨.cue, b⟩ }) } b
        ⟨.cue a, z.id, sl, .context c⟩ := by
  have h1 : ({ s with contexts := s.contexts.set c (some { y with awaited := none }) } : State).ctx c =
      some { y with awaited := none } := get_set_self _ _ _
  have hnext : s.ackOutcome c = (s.mapCtx c fun x => { x with awaited := none }).postCue c := by
    rw [State.ackOutcome]
    simp only [hc, hp, hk]
  rw [hnext, State.mapCtx_eq hc, State.postCue_eq h1 hs ht hsl he]
  simp only [set_set]

/-- The Ack of a Reserve of a Summon or Attach: a Summon to the target. -/
theorem State.ackOutcome_summon (hc : s.ctx c = some y) (hp : y.phase = .reserve) (hk : y.kind ≠ .move)
    (ht : y.target = some a) (hsl : y.targetSlot = some sl) (he : s.entry y.entry = some z) :
    s.ackOutcome c =
      State.postOrder { s with contexts := s.contexts.set c (some { y with phase := .summon, awaited := some ⟨.summon, a⟩ }) } a
        ⟨.summon, z.id, sl, .context c⟩ := by
  have h1 : ({ s with contexts := s.contexts.set c (some { y with awaited := none }) } : State).ctx c =
      some { y with awaited := none } := get_set_self _ _ _
  have h2 : ({ s with
      contexts := (s.contexts.set c (some { y with awaited := none })).set c (some { y with awaited := none, phase := .summon })
      } : State).ctx c = some { y with awaited := none, phase := .summon } := get_set_self _ _ _
  have hnext : s.ackOutcome c = ((s.mapCtx c fun x => { x with awaited := none }).mapCtx c fun x =>
      { x with phase := .summon }).postSummon c := by
    rw [State.ackOutcome]
    cases hkk : y.kind with
    | move => exact absurd hkk hk
    | summon | attach => simp only [hc, hp, hkk]
  rw [hnext, State.mapCtx_eq hc, State.mapCtx_eq h1, State.postSummon_eq h2 ht hsl he]
  simp only [set_set]

theorem State.ackOutcome_arrival (hc : s.ctx c = some y) (hp : y.phase = .cue ∨ y.phase = .summon) :
    s.ackOutcome c = { s with contexts := s.contexts.set c (some { y with
      phase := .arrival, awaited := none, arrivalTimer := some (((s.policy.get 6).toNat + 1) * 4) }) } := by
  have h1 : ({ s with contexts := s.contexts.set c (some { y with awaited := none }) } : State).ctx c =
      some { y with awaited := none } := get_set_self _ _ _
  have hnext : s.ackOutcome c = (s.mapCtx c fun x => { x with awaited := none }).beginArrival c := by
    rw [State.ackOutcome]
    rcases hp with hp | hp <;> simp only [hc, hp]
  rw [hnext, State.mapCtx_eq hc, State.beginArrival, State.mapCtx_eq h1]
  simp only [set_set]
  rfl

theorem State.ackOutcome_later (hc : s.ctx c = some y) (hp : y.phase = .arrival ∨ y.phase = .release) :
    s.ackOutcome c = { s with contexts := s.contexts.set c (some { y with awaited := none }) } := by
  have hnext : s.ackOutcome c = s.mapCtx c fun x => { x with awaited := none } := by
    rw [State.ackOutcome]
    rcases hp with hp | hp <;> simp only [hc, hp]
  rw [hnext, State.mapCtx_eq hc]

/-- The transaction that a slot's Release ends. -/
theorem State.releasedBy_some (he : s.entry e = some x) (hx : x.context = some c) (hc : s.ctx c = some y)
    (hr : y.phase = .release ∧ y.source = some (a, sl)) : s.releasedBy a sl e = some c := by
  unfold State.releasedBy
  simp only [he, Option.bind_some, hx, hc, hr.1, hr.2, Bool.true_and, decide_true, if_true]

theorem State.releasedBy_none (he : s.entry e = some x)
    (h : ∀ c y, x.context = some c → s.ctx c = some y → ¬ (y.phase = .release ∧ y.source = some (a, sl))) :
    s.releasedBy a sl e = none := by
  unfold State.releasedBy
  simp only [he, Option.bind_some]
  cases hx : x.context with
  | none => rfl
  | some c =>
    simp only
    cases hc : s.ctx c with
    | none => rfl
    | some y => exact if_neg (by simpa using h c y hx hc)

/-- Which transaction a Release ends depends on the roster and the contexts alone. -/
theorem State.releasedBy_of (hr : t.roster = s.roster) (hc : t.contexts = s.contexts) :
    t.releasedBy a sl e = s.releasedBy a sl e := by
  simp only [State.releasedBy, State.entry, State.ctx, hr, hc]

theorem State.endRelease_releasing (hs : s.slot a sl = .releasing e) :
    s.endRelease a sl = ((s.freeSlot a sl).afterRelease a sl e).drainTest a .moves := by
  rw [State.endRelease, hs]

theorem State.afterRelease_freeSlot (he : s.entry e = some x) (hs : s.slot a sl = .releasing e) :
    (s.freeSlot a sl).afterRelease a sl e = match s.releasedBy a sl e with
      | none => s.freeSlot a sl
      | some c => (s.freeSlot a sl).complete c := by
  have hfree := State.freeSlot_held he (Slot.entry?_some.mpr (.inr (.inr hs)))
  rw [State.afterRelease, State.releasedBy_of (s := s) (by rw [hfree]) (by rw [hfree])] <;> rfl

theorem State.recordReleaseTimeout_eq (he : s.entry e = some x) :
    s.recordReleaseTimeout e =
      { s with roster := s.roster.set e (some { x with accrued := x.accrued ||| 0x04 }),
               link := { s.link with domainAccrued := s.link.domainAccrued ||| 0x04 } } := by
  unfold State.recordReleaseTimeout
  rw [State.mapEntry_eq he]
  rfl

theorem State.giveOutcome_slot (hp : o.poster = .slot sl) (hs : s.slot a sl = .releasing e) :
    s.giveOutcome a o w =
      (if w = .timedOut ∧ (s.releasedBy a sl e).isSome = true then s.recordReleaseTimeout e else s).endRelease a sl := by
  rw [State.giveOutcome, hp]
  simp only [hs, Slot.entry?]
  cases w with
  | timedOut => simp
  | acked | refused => simp

/-- Settles O41: no poster, a context by the outcome and its phase, a slot with and without its transaction, and the drain
test. -/
theorem outcomesGoToThePoster : Obligations.OutcomesGoToThePoster := by
  intro s a o w
  refine ⟨fun hp => ?_, fun c y hp hc => ⟨fun hw => ?_, fun hw => ?_, fun hw => ⟨?_, ?_, ?_, ?_⟩⟩,
    fun sl e x hp hs he => ⟨fun c y hx hc hr => ?_, fun hno => ?_⟩, s.drainTest_eq a⟩
  · rw [State.giveOutcome, hp]
  · subst hw; exact State.giveOutcome_context hp
  · subst hw; exact State.giveOutcome_context hp
  · intro b bsl ta sl z h1 h2 h3 h4 h5 h6
    subst hw; exact (State.giveOutcome_context hp).trans (State.ackOutcome_cue hc h1 h2 h3 h4 h5 h6)
  · intro ta sl z h1 h2 h3 h4 h5
    subst hw; exact (State.giveOutcome_context hp).trans (State.ackOutcome_summon hc h1 h2 h3 h4 h5)
  · intro h1
    subst hw; exact (State.giveOutcome_context hp).trans (State.ackOutcome_arrival hc h1)
  · intro h1
    subst hw; exact (State.giveOutcome_context hp).trans (State.ackOutcome_later hc h1)
  · have hrel := State.releasedBy_some he hx hc hr
    rw [State.giveOutcome_slot hp hs, hrel]
    by_cases hw : w = .timedOut
    · rw [if_pos ⟨hw, rfl⟩, if_pos hw, State.recordReleaseTimeout_eq he]
      generalize hu : ({ s with roster := s.roster.set e (some { x with accrued := x.accrued ||| 0x04 }),
                                link := { s.link with domainAccrued := s.link.domainAccrued ||| 0x04 } } : State) = u
      have hue : u.entry e = some { x with accrued := x.accrued ||| 0x04 } := by rw [← hu]; exact get_set_self _ _ _
      have hus : u.slot a sl = .releasing e := by rw [← hu]; exact hs
      have huc : u.ctx c = some y := by rw [← hu]; exact hc
      rw [State.endRelease_releasing hus, State.afterRelease_freeSlot hue hus,
        State.releasedBy_some (x := { x with accrued := x.accrued ||| 0x04 }) hue hx huc hr]
    · rw [if_neg (fun h => hw h.1), if_neg hw, State.endRelease_releasing hs, State.afterRelease_freeSlot he hs, hrel]
  · have hrel := State.releasedBy_none he hno
    rw [State.giveOutcome_slot hp hs, hrel, if_neg (by simp), State.endRelease_releasing hs,
      State.afterRelease_freeSlot he hs, hrel]

/-! ### The end of an exchange (R29 to R32, R156, R157) -/

theorem Antenna.flagged_closed {r r' : Antenna} : (r.flagged r').carrying = r'.carrying := (r.flagged_fields r').2.2.2.2.2.2

/-- A change of one record with its sweep, the port's next exchange and the dispatch. -/
theorem antennaEvent_of {f : Antenna → Antenna} {late : Option ContextNo} {r' : Antenna} (hf : f (s.ant a) = r')
    (hch : r'.changed = (s.ant a).changed) :
    AntennaEvent s (((s.changeAndSweep a late f).beginExchange a).settle) a late r' := by
  have heq := s.changeAndSweep_eq a late (f := f) (by rw [hf]; exact hch)
  rw [hf] at heq
  rw [heq]
  refine ⟨fun hc => ?_, fun hc => ?_⟩
  · rw [if_pos hc]
    obtain ⟨h1, h2, h3, h4, h5, h6, h7, h8⟩ := State.closesOut_ant (s := s) (late := late) hc.1 hc.2
      ((State.beginExchange_settled _ a).trans (State.settle_settled _))
    exact ⟨rfl, h1, h2, h3, h5, h6, h7, h8⟩
  · rw [if_neg hc]

theorem State.takeStatus_probe {mode flag : Byte} (hp : (s.port a).inFlight.map Exchange.sent = some .probe)
    (hm : mode = 0x01 ∨ mode = 0x02) :
    AntennaEvent (s.ended a) (s.takeStatus a mode flag) a none
      { s.ant a with probeMisses := 0, link := if mode = 0x01 then .serveCapable else .listenOnly,
                     fault := (s.ant a).fault || flag ≠ 0 } := by
  have hprobe : (s.port a).probeInFlight = true := by rw [Port.probeInFlight_eq]; simpa using hp
  have hmode : statusMode mode = some (if mode = 0x01 then .serveCapable else .listenOnly) := by
    unfold statusMode; rcases hm with rfl | rfl <;> rfl
  have htake : s.takeStatus a mode flag = ((((s.ended a).changeAndSweep a none fun r =>
      { r with probeMisses := 0, link := if mode = 0x01 then .serveCapable else .listenOnly,
               fault := r.fault || flag != 0 }).beginExchange a)).settle := by
    rw [State.takeStatus, hmode, hprobe]; rfl
  rw [htake]
  refine antennaEvent_of ?_ rfl
  have hflag : (flag != 0) = decide (flag ≠ 0) := by rw [bne, beq_eq_decide, decide_not]
  simp only [hflag]
  rfl

theorem State.takeStatus_stray {mode flag : Byte}
    (h : (s.port a).inFlight.map Exchange.sent ≠ some .probe ∨ ¬ (mode = 0x01 ∨ mode = 0x02)) :
    s.takeStatus a mode flag = s.strayed := by
  unfold State.takeStatus
  split
  next l hl hp =>
    exfalso
    rcases h with h | h
    · rw [Port.probeInFlight_eq] at hp; exact h (by simpa using hp)
    · unfold statusMode at hl
      split at hl
      · exact h (.inl (by assumption))
      · split at hl
        · exact h (.inr (by assumption))
        · cases hl
  next => rfl

theorem Order.matchesReply_iff {type sb : Byte} {id : BeltpackId} :
    o.matchesReply type id sb = true ↔ Matches o type id sb := by
  unfold Order.matchesReply Matches
  rw [Bool.and_eq_true, Bool.and_eq_true, beq_iff_eq, beq_iff_eq, beq_iff_eq, and_assoc]
  cases o.body <;> exact Iff.rfl

theorem Port.orderInFlight_eq (p : Port) :
    p.orderInFlight = match p.inFlight.map Exchange.sent with | some (.order o) => some o | _ => none := by
  unfold Port.orderInFlight
  cases hx : p.inFlight with
  | none => rfl
  | some v => obtain ⟨_ | o, d, r⟩ := v <;> rfl

theorem State.takeOrderReply_order {type sb : Byte} {id : BeltpackId}
    (ho : (s.port a).inFlight.map Exchange.sent = some (.order o)) :
    (Matches o type id sb → s.takeOrderReply a type id sb w =
      ((({ s.ended a with antennas := s.antennas.set a { s.ant a with orderMisses := 0 } } : State).giveOutcome a o
        w).beginExchange a).settle) ∧
    (¬ Matches o type id sb → s.takeOrderReply a type id sb w = s.strayed) := by
  have hin : (s.port a).orderInFlight = some o := by rw [Port.orderInFlight_eq, ho]
  unfold State.takeOrderReply
  simp only [hin]
  exact ⟨fun h => if_pos (Order.matchesReply_iff.mpr h), fun h => if_neg (mt Order.matchesReply_iff.mp h)⟩

theorem State.takeOrderReply_stray {type sb : Byte} {id : BeltpackId}
    (h : ∀ o, (s.port a).inFlight.map Exchange.sent ≠ some (.order o)) : s.takeOrderReply a type id sb w = s.strayed := by
  have hin : (s.port a).orderInFlight = none := by
    rw [Port.orderInFlight_eq]
    split
    · rename_i o ho; exact absurd ho (h o)
    · rfl
  unfold State.takeOrderReply
  simp only [hin]
  rfl

/-- A reply is taken by the exchange it matches, or is a stray. -/
theorem State.takeReply_taken (s : State) (a : AntennaNo) (r : PortReply) : ReplyTaken s (s.takeReply a r) a r := by
  unfold ReplyTaken
  cases hx : (s.port a).inFlight.map Exchange.sent with
  | none =>
    cases r with
    | status m f => exact State.takeStatus_stray (.inl (by rw [hx]; nofun))
    | ack ty id sl => exact State.takeOrderReply_stray (by rw [hx]; nofun)
    | refuse ty id sl => exact State.takeOrderReply_stray (by rw [hx]; nofun)
  | some v =>
    cases v with
    | probe =>
      cases r with
      | status m f =>
        simp only
        split
        · exact State.takeStatus_probe hx (by assumption)
        · exact State.takeStatus_stray (.inr (by assumption))
      | ack ty id sl => exact State.takeOrderReply_stray (by rw [hx]; nofun)
      | refuse ty id sl => exact State.takeOrderReply_stray (by rw [hx]; nofun)
    | order o =>
      cases r with
      | status m f => exact State.takeStatus_stray (.inl (by rw [hx]; nofun))
      | ack ty id sl => exact State.takeOrderReply_order hx
      | refuse ty id sl => exact State.takeOrderReply_order hx

theorem State.lineReply_taken (hl : (s.ant a).loopback = .off) (r : PortReply) :
    ReplyTaken (s.heard a) (s.wake.lineReply a r) a r := by
  rw [State.lineReply, State.fromLine_off hl]
  exact State.takeReply_taken _ _ _

/-- The count of order timeouts in the words of the claims (R31, R32). -/
theorem Antenna.countTimeout_eq (r : Antenna) :
    r.countTimeout =
      { r with orderMisses := min 2 (r.orderMisses + 1), fault := r.fault || decide (1 ≤ r.orderMisses) } := by
  unfold Antenna.countTimeout
  have h : (min Config.orderMissLimit (r.orderMisses + 1) == Config.orderMissLimit) = decide (1 ≤ r.orderMisses) := by
    rw [Bool.eq_iff_iff, beq_iff_eq, decide_eq_true_iff]
    simp only [Config.orderMissLimit]; omega
  simp only [h]
  rfl

theorem State.missProbe_event (s : State) (a : AntennaNo) :
    AntennaEvent s (s.missProbe a) a none
      { s.ant a with probeMisses := min 3 ((s.ant a).probeMisses + 1),
                     link := if 2 ≤ (s.ant a).probeMisses then .absent else (s.ant a).link } := by
  refine antennaEvent_of ?_ rfl
  have h : (min Config.missLimit ((s.ant a).probeMisses + 1) = Config.missLimit) = (2 ≤ (s.ant a).probeMisses) := by
    rw [eq_iff_iff]; simp only [Config.missLimit]; omega
  simp only [h]
  rfl

theorem Antenna.timeoutCloses_iff (r : Antenna) :
    r.timeoutCloses = true ↔ r.carrying = true ∧ r.countTimeout.carrying = false := by simp [Antenna.timeoutCloses]

/-- An order timeout by its poster. -/
theorem State.timeOutOrder_cases (s : State) (a : AntennaNo) (o : Order) :
    (o.poster = .nobody → AntennaEvent s (s.timeOutOrder a o) a none (s.ant a).countTimeout) ∧
    (∀ sl, o.poster = .slot sl → AntennaEvent (s.giveOutcome a o .timedOut) (s.timeOutOrder a o) a none
      ((s.giveOutcome a o .timedOut).ant a).countTimeout) ∧
    ∀ c, o.poster = .context c →
      ((s.ant a).timeoutCloses = true → AntennaEvent s (s.timeOutOrder a o) a (some c) (s.ant a).countTimeout) ∧
      (¬ (s.ant a).timeoutCloses = true → s.timeOutOrder a o =
        ((((s.recordChanged a (s.ant a).countTimeout).giveOutcome a o .timedOut).beginExchange a)).settle) := by
  refine ⟨fun hp => ?_, fun sl hp => ?_, fun c hp => ⟨fun hc => ?_, fun hc => ?_⟩⟩
  · simp only [State.timeOutOrder, hp]
    exact antennaEvent_of rfl rfl
  · simp only [State.timeOutOrder, hp]
    exact antennaEvent_of rfl rfl
  · simp only [State.timeOutOrder, hp, hc, if_true]
    exact antennaEvent_of rfl rfl
  · simp only [State.timeOutOrder, hp, hc]
    rw [s.changeAndSweep_eq a none rfl, if_neg (mt (Antenna.timeoutCloses_iff _).mpr hc)]
    rfl

/-- Settles O38: replies from the line and prepared ones, probe misses, and order timeouts. -/
theorem exchangesEndByReplyOrTimeout : Obligations.ExchangesEndByReplyOrTimeout := by
  refine ⟨fun s a m f ty sl re id => ⟨fun hl => ⟨⟨_, rfl, State.lineReply_taken hl _⟩, ⟨_, rfl, State.lineReply_taken hl _⟩,
    ⟨_, rfl, State.lineReply_taken hl _⟩⟩, fun hl => ⟨?_, ?_, ?_⟩, fun x r hx hr => ?_, fun hr => ?_⟩, fun s a => ?_⟩
  · exact congrArg _ (State.fromLine_looped hl _)
  · exact congrArg _ (State.fromLine_looped hl _)
  · exact congrArg _ (State.fromLine_looped hl _)
  · refine ⟨s.wake.takeReply a r, ?_, State.takeReply_taken _ _ _⟩
    show Host.Outcome.next (match (s.wake.port a).inFlight.bind (·.prepared) with | some r => s.wake.takeReply a r | none => s.wake) = _
    rw [show (s.wake.port a).inFlight = some x from hx, Option.bind_some, hr]
  · show Host.Outcome.next (match (s.wake.port a).inFlight.bind (·.prepared) with | some r => s.wake.takeReply a r | none => s.wake) = _
    rw [show (s.wake.port a).inFlight.bind (·.prepared) = none from hr]
  intro h counted faults
  have hcount : counted = Antenna.countTimeout := funext fun r => (Antenna.countTimeout_eq r).symm
  have hcan : ∀ x, (s.port a).inFlight = some x → ((s.wake.port a).canTimeOut = true ↔ x.prepared = none) := by
    intro x hx
    rw [Port.canTimeOut, show (s.wake.port a).inFlight = some x from hx, Option.bind_some, Option.isNone_iff_eq_none]
  refine ⟨fun x hx hs hp => ?_, fun hno => ?_, fun x o hx hs hp => ?_, fun hno => ?_⟩
  · refine ⟨h.missProbe a, ?_, State.missProbe_event _ _⟩
    have hprobe : (s.wake.port a).probeInFlight = true := by
      rw [Port.probeInFlight_eq, show (s.wake.port a).inFlight = some x from hx]; simp [hs]
    show Host.Outcome.next (if (s.wake.port a).probeInFlight && (s.wake.port a).canTimeOut then _ else _) = _
    rw [if_pos (by rw [hprobe, (hcan x hx).mpr hp]; rfl)]
    rfl
  · show Host.Outcome.next (if (s.wake.port a).probeInFlight && (s.wake.port a).canTimeOut then _ else _) = _
    rw [if_neg]
    intro hh
    rw [Bool.and_eq_true, Port.probeInFlight_eq, decide_eq_true_iff] at hh
    obtain ⟨x, hx, hs⟩ := Option.map_eq_some_iff.mp hh.1
    exact (hno x hx).elim (fun hn => hn hs) fun hn => hn ((hcan x hx).mp hh.2)
  · have hin : (s.wake.port a).orderInFlight = some o := by
      rw [Port.orderInFlight_eq, show (s.wake.port a).inFlight = some x from hx, Option.map_some, hs]
    obtain ⟨h1, h2, h3⟩ := State.timeOutOrder_cases h a o
    rw [hcount]
    refine ⟨h.timeOutOrder a o, ?_, h1, h2, fun c hc => ⟨fun hf => (h3 c hc).1 ?_, fun hf => (h3 c hc).2 ?_⟩⟩
    · show Host.Outcome.next (match (s.wake.port a).orderInFlight with
        | some o => if (s.wake.port a).canTimeOut then _ else _ | none => _) = _
      rw [hin]
      simp only
      rw [if_pos ((hcan x hx).mpr hp)]
      rfl
    · rw [Antenna.timeoutCloses_iff, ← hcount]; exact hf
    · rw [Antenna.timeoutCloses_iff, ← hcount]; exact hf
  · show Host.Outcome.next (match (s.wake.port a).orderInFlight with
      | some o => if (s.wake.port a).canTimeOut then _ else _ | none => _) = _
    cases ho : (s.wake.port a).orderInFlight with
    | none => rfl
    | some o =>
      rw [Port.orderInFlight_eq] at ho
      cases hx : (s.port a).inFlight with
      | none => rw [show (s.wake.port a).inFlight = none from hx] at ho; cases ho
      | some x =>
        rw [show (s.wake.port a).inFlight = some x from hx, Option.map_some] at ho
        cases hs : x.sent with
        | probe => rw [hs] at ho; cases ho
        | order o' =>
          simp only
          rw [if_neg (fun hh => hno x o' hx hs ((hcan x hx).mp hh))]

end Sys2Proof.Machine
end

section
/-! Reports (R158, R161) and the Survey Unit: scores and candidates (R60, R62, R74), Sightings and what follows them (R58, R59, R65 to R71). -/

namespace Sys2Proof.Machine

variable {s t u : State} {a b : AntennaNo} {e : EntryNo} {x : Entry} {q : Byte} {id : BeltpackId}

/-! ### Delivery (R158, R161) -/

theorem State.takeReport_absent (h : (s.ant a).link = .absent) (r : Report) : s.takeReport a r = s := by
  rw [State.takeReport, State.delivers, h]; rfl

theorem State.delivers_iff : s.delivers a = true ↔ (s.ant a).link ≠ .absent := by simp [State.delivers]

theorem State.takeReport_delivered (h : (s.ant a).link ≠ .absent) (r : Report) :
    s.takeReport a r = (r.taken a s).settle := by
  rw [State.takeReport, if_pos (State.delivers_iff.mpr h)]
  cases r <;> rfl

theorem exec_lineReport {i : Instr} {r : Report} (h : lineReport i = some (a, r)) :
    exec i s = .next (s.wake.lineReport a r) := by
  unfold lineReport at h
  split at h <;> cases h <;> rfl

/-- A row of Inject Report is its body with the fields of its kind. -/
theorem injected_body {i : Instr} {b : Byte} {found : Option Report} (h : injected i = some (b, found)) :
    ∃ k fields, report? k fields = found ∧ ∀ s, exec i s = hostCommand 0x16 (injectBody b k fields) s := by
  unfold injected at h
  split at h <;> cases h
  case h_6 p h1 h2 =>
    refine ⟨.sighting, p, ?_, fun _ => rfl⟩
    match p, h1, h2 with
    | [], _, _ | [_], _, _ | [_, _, _], _, _ | _ :: _ :: _ :: _ :: _ :: _, _, _ => rfl
    | [sl, q], h1, _ => exact absurd rfl (h1 sl q)
    | [x, y, z, q], _, h2 => exact absurd rfl (h2 x y z q)
  case h_7 p h1 =>
    refine ⟨.seek, p, ?_, fun _ => rfl⟩
    match p, h1 with
    | [], _ | [_], _ | [_, _], _ | [_, _, _], _ | _ :: _ :: _ :: _ :: _ :: _, _ => rfl
    | [x, y, z, q], h1 => exact absurd rfl (h1 x y z q)
  case h_8 p h1 =>
    refine ⟨.arrival, p, ?_, fun _ => rfl⟩
    match p, h1 with
    | [], _ | [_], _ | [_, _], _ | [_, _, _], _ | _ :: _ :: _ :: _ :: _ :: _, _ => rfl
    | [x, y, z, sl], h1 => exact absurd rfl (h1 x y z sl)
  case h_9 p h1 =>
    refine ⟨.signOff, p, ?_, fun _ => rfl⟩
    match p, h1 with
    | [], _ | [_], _ | [_, _], _ | _ :: _ :: _ :: _ :: _, _ => rfl
    | [x, y, z], h1 => exact absurd rfl (h1 x y z)
  all_goals exact ⟨_, _, rfl, fun _ => rfl⟩

theorem injectBody_byte {k : ReportKind} {fields : List Byte} :
    injectBody (byte a) k fields s = match report? k fields with
      | none => .refuse .length
      | some r =>
        if (s.ant a).loopback = .off then .refuse .state
        else .answer [flagByte (s.delivers a)] (s.takeReport a r) := by
  rw [injectBody, withAntenna_byte] <;> rfl

/-! ### What the blocks keep when they take a report -/

theorem State.considerDrain_settled (s : State) (e : EntryNo) : Settled s (s.considerDrain e) := by
  unfold State.considerDrain; split
  · exact .refl s
  · split
    · exact s.raiseRequest_settled _ _
    · exact .refl s

theorem State.considerFade_settled (s : State) (e : EntryNo) : Settled s (s.considerFade e) := by
  unfold State.considerFade; split
  · exact .refl s
  · split
    · exact s.raiseRequest_settled _ _
    · exact .refl s

theorem State.evaluate_settled (s : State) (e : EntryNo) : Settled s (s.evaluate e) := by
  unfold State.evaluate; split
  · exact .refl s
  · split
    · exact s.mapSurvey_settled _ _
    · simp only
      split
      · exact (s.mapSurvey_settled _ _).trans (State.raiseRequest_settled _ _ _)
      · exact s.mapSurvey_settled _ _

theorem State.considerEvacuation_settled (s : State) (e : EntryNo) : Settled s (s.considerEvacuation e) := by
  unfold State.considerEvacuation; split
  · exact .refl s
  · split
    · exact s.raiseEvacuation_settled _
    · exact .refl s

theorem State.considerServed_settled (s : State) (e : EntryNo) (b : Bool) : Settled s (s.considerServed e b) := by
  unfold State.considerServed
  refine (s.considerDrain_settled e).trans (Settled.trans ?_ (State.evaluate_settled _ e))
  cases b
  · exact .refl _
  · exact State.considerFade_settled _ e

theorem State.digestSighting_settled (s : State) (e : EntryNo) (a : AntennaNo) (q : Byte) :
    Settled s (s.digestSighting e a q) := by
  unfold State.digestSighting; split
  · exact .refl s
  next x _ =>
    split
    · exact .refl s
    · have h : Settled s (if x.servedAt a then s.mapSurvey e (·.sampleServing q s.smoothing)
          else s.mapSurvey e (·.update a q s.smoothing s.candidateLifetime)) := by
        split <;> exact s.mapSurvey_settled _ _
      simp only
      split
      · exact h.trans (State.considerServed_settled _ _ _)
      · exact h.trans (State.considerEvacuation_settled _ _)
      all_goals exact h

theorem State.takeSighting_settled (s : State) (a : AntennaNo) (f : SightingForm) : Settled s (s.takeSighting a f) := by
  cases f with
  | compact slot q =>
    unfold State.takeSighting
    simp only
    split
    · exact s.latchStray_settled
    · exact s.digestSighting_settled _ _ _
  | extended id q =>
    unfold State.takeSighting
    simp only
    split
    · exact .refl s
    · exact s.digestSighting_settled _ _ _

theorem State.hearStranger_hostKept (s : State) (id : BeltpackId) (a : AntennaNo) (q : Byte) :
    HostKept s (s.hearStranger id a q) := by
  unfold State.hearStranger
  split
  · exact .refl s
  · exact ⟨rfl, rfl, rfl, rfl, .notice .refl _, fun _ => rfl, fun _ => rfl⟩

theorem State.seekEvacuation_settled (s : State) (e : EntryNo) (a : AntennaNo) (q : Byte) :
    Settled s (s.seekEvacuation e a q) :=
  (s.mapSurvey_settled _ _).trans (State.raiseRequest_settled _ _ _)

theorem State.leftWithoutHandoff_settled (s : State) (e : EntryNo) (b : AntennaNo) (sl : SlotNo) (a : AntennaNo) (q : Byte) :
    Settled s (s.leftWithoutHandoff e b sl a q) :=
  ((s.releaseSlot_settled _ _).trans (State.loseServing_settled _ _ _)).trans (State.seekEvacuation_settled _ _ _ _)

theorem State.offerSeek_settled (s : State) (c : ContextNo) (a : AntennaNo) : Settled s (s.offerSeek c a) := by
  unfold State.offerSeek; split
  · exact .refl s
  · split
    · exact (s.mapCtx_settled _ _).trans (State.postSummon_settled _ _)
    · exact .refl s

theorem State.seekEntry_settled (s : State) (e : EntryNo) (x : Entry) (a : AntennaNo) (q : Byte) :
    Settled s (s.seekEntry e x a q) := by
  unfold State.seekEntry
  split
  · exact (s.offerSeek_settled _ _).trans (State.digestSighting_settled _ _ _ _)
  · exact s.raiseRequest_settled _ _
  · exact s.seekEvacuation_settled _ _ _
  · split
    · exact s.digestSighting_settled _ _ _
    · exact s.leftWithoutHandoff_settled _ _ _ _ _
  · exact s.digestSighting_settled _ _ _

theorem State.takeSeek_hostKept (s : State) (a : AntennaNo) (id : BeltpackId) (q : Byte) : HostKept s (s.takeSeek a id q) := by
  unfold State.takeSeek
  split
  · exact s.latchStray_settled.hostKept
  · split
    · exact s.hearStranger_hostKept _ _ _
    · split
      · exact .refl s
      · split
        · exact .refl s
        · exact (s.seekEntry_settled _ _ _ _).hostKept

theorem State.setSlot_worked (s : State) (a : AntennaNo) (sl : SlotNo) (v : Slot) : Worked s (s.setSlot a sl v) :=
  ⟨rfl, rfl, rfl, rfl, rfl, .refl, fun _ => rfl, fun b => by rw [State.ant_setSlot]; rfl⟩

theorem State.takeTargetArrival_worked (s : State) (c : ContextNo) (x : Context) (a : AntennaNo) (sl : SlotNo) :
    Worked s (s.takeTargetArrival c x a sl) := by
  unfold State.takeTargetArrival
  have h := ((s.mapCtx_settled c fun y => { y with arrivalTimer := none }).trans (State.stopAwaiting_settled _ c)).toWorked
  refine h.trans ?_
  simp only
  split
  · exact .refl _
  next y _ =>
    generalize (s.mapCtx c fun y => { y with arrivalTimer := none }).stopAwaiting c = u
    have hserve : Worked u ((((u.setSlot a sl (.occupied x.entry)).mapEntry x.entry
        (·.arrive a sl (x.source.map (·.1)))).notifyAttached x.entry y a sl)) := by
      refine ((u.setSlot_worked a sl (.occupied x.entry)).trans (State.mapEntry_settled _ x.entry
        (f := (·.arrive a sl (x.source.map (·.1))))).toWorked).trans ?_
      unfold State.notifyAttached
      split
      · exact (State.queueNotice_settled _ _).toWorked
      · exact (State.queueNotice_settled _ _).toWorked
      all_goals exact .refl _
    refine hserve.trans ?_
    split
    · exact ((State.mapCtx_settled _ _ _).trans (State.releaseSlot_settled _ _ _)).toWorked
    · exact (State.complete_settled _ _).toWorked

theorem State.takeArrival_worked (s : State) (a : AntennaNo) (id : BeltpackId) (slot : Byte) :
    Worked s (s.takeArrival a id slot) := by
  unfold State.takeArrival
  split
  · split
    · exact s.latchStray_settled.toWorked
    · unfold State.offerArrival
      split
      · exact s.takeTargetArrival_worked _ _ _ _
      · split
        · exact (s.dispose_settled _ _).toWorked
        · exact s.latchStray_settled.toWorked
  · exact s.latchStray_settled.toWorked

theorem State.takeSignOff_settled (s : State) (id : BeltpackId) : Settled s (s.takeSignOff id) := by
  unfold State.takeSignOff
  split
  · exact .refl s
  next e _ =>
    split
    · exact .refl s
    next x _ =>
      have hctx : Settled s (match x.context with | none => s | some c => s.signOffTransaction c) := by
        split
        · exact .refl s
        · exact (s.giveUpAttempt_settled _).trans (State.putCtx_settled _ _ _)
      have h := (hctx.trans (State.releaseAt_settled _ x.serving)).trans (State.removeRequest_settled _ e)
      simp only
      split
      · exact h
      · exact h.trans (State.detachWith_settled _ _ _)

theorem Report.taken_hostKept (r : Report) (a : AntennaNo) (s : State) : HostKept s (r.taken a s) := by
  cases r with
  | sighting f => exact (s.takeSighting_settled a f).hostKept
  | seek id q => exact s.takeSeek_hostKept a id q
  | arrival id sl => exact (s.takeArrival_worked a id sl).hostKept
  | signOff id => exact (s.takeSignOff_settled id).hostKept

/-- Settles O42: reports from the line, and injected ones. -/
theorem reportsAreDelivered : Obligations.ReportsAreDelivered := by
  intro s a
  refine ⟨fun i r hi => ⟨fun hl => ?_, fun hl hab => ?_, fun hl hab => ?_⟩, fun i found hi hx => ?_⟩
  · rw [exec_lineReport hi, State.lineReport, State.fromLine_looped hl]
  · rw [exec_lineReport hi, State.lineReport, State.fromLine_off hl]
    exact congrArg _ (State.takeReport_absent (s := s.heard a) hab r)
  · rw [exec_lineReport hi, State.lineReport, State.fromLine_off hl]
    exact congrArg _ (State.takeReport_delivered (s := s.heard a) hab r)
  obtain ⟨k, fields, hk, hexec⟩ := injected_body hi
  rw [hexec s]
  have hbody := injectBody_byte (s := s.atWork 0x16) (a := a) (k := k) (fields := fields)
  cases found with
  | none =>
    rw [hk] at hbody
    obtain ⟨t, ht, hr⟩ := hostCommand_refused hx hbody
    exact ⟨t, ht, fun _ => hr, fun r hn => by cases hn⟩
  | some r =>
    simp only [hk] at hbody
    have only : ∀ {Q : Report → Prop}, Q r → ∀ r', some r = some r' → Q r' := fun hQ r' h => Option.some.inj h ▸ hQ
    by_cases hl : (s.ant a).loopback = .off
    · rw [if_pos (by exact hl)] at hbody
      obtain ⟨t, ht, hr⟩ := hostCommand_refused hx hbody
      exact ⟨t, ht, nofun, only ⟨fun _ => hr, fun hn => absurd hl hn, fun hn => absurd hl hn⟩⟩
    rw [if_neg (by exact hl)] at hbody
    by_cases hab : (s.ant a).link = .absent
    · rw [State.takeReport_absent (s := s.atWork 0x16) hab, State.delivers, show ((s.atWork 0x16).ant a).link = .absent from hab]
        at hbody
      obtain ⟨t, ht, htold⟩ := hostCommand_told hx hbody
      exact ⟨t, ht, nofun, only ⟨fun hn => absurd hn hl, fun _ _ => htold, fun _ hn => absurd hab hn⟩⟩
    · rw [State.takeReport_delivered (s := s.atWork 0x16) hab, State.delivers_iff.mpr (by exact hab)] at hbody
      obtain ⟨t, ht, hdone⟩ := hostCommand_doneThen hx hbody (Report.taken_hostKept r a _).link
      exact ⟨t, ht, nofun, only ⟨fun hn => absurd hn hl, fun _ hn => absurd hn hab, fun _ _ => hdone⟩⟩

end Sys2Proof.Machine
end

section
/-! The Survey Unit: scores and candidates (R60, R62, R74), Sightings and what follows them (R58, R59, R65 to R71). -/

namespace Sys2Proof.Machine

variable {s t u : State} {a b : AntennaNo} {e : EntryNo} {x : Entry} {q : Byte} {id : BeltpackId} {v : Survey}
  {l : List Candidate} {k : Candidate}

/-! ### Candidates (R62) -/

theorem findCandidate_of_mem (hl : ListKept l) (hk : k ∈ l) (ha : k.antenna = a) : findCandidate a l = some k := by
  have hinj := List.inj_on_of_nodup_map (List.pairwise_map.mpr hl.antennas : (l.map Candidate.antenna).Nodup)
  cases hf : findCandidate a l with
  | none => exact absurd ha (by simpa using List.find?_eq_none.mp hf k hk)
  | some j =>
    have hj : j.antenna = a := by simpa using List.find?_some hf
    rw [hinj (List.mem_of_find?_eq_some hf) hk (hj.trans ha.symm)]

theorem findCandidate_of_not (h : ∀ k ∈ l, k.antenna ≠ a) : findCandidate a l = none := by
  rw [findCandidate, List.find?_eq_none]
  simpa using h

theorem dropCandidate_length_lt (hk : k ∈ l) (ha : k.antenna = a) : (dropCandidate a l).length < l.length := by
  rw [dropCandidate_eq]
  exact List.length_filter_lt_length_iff_exists.mpr ⟨k, hk, by simp [ha]⟩

theorem dropCandidate_antenna : ∀ k ∈ dropCandidate a l, k.antenna ≠ a := by
  intro k hk
  rw [dropCandidate_eq] at hk
  simpa using (List.mem_filter.mp hk).2

theorem dropCandidate_kept (hl : ListKept l) : ListKept (dropCandidate a l) := hl.sublist List.filter_sublist

/-- A candidate that the list holds, taken out and placed again with another score. -/
theorem rescore_kept (hl : ListKept l) (hk : k ∈ l) (ha : k.antenna = a) (score : Byte) (ms : Nat) :
    ListKept (placeCandidate ⟨a, score, ms⟩ (dropCandidate a l)) ∧
      (placeCandidate ⟨a, score, ms⟩ (dropCandidate a l)).Perm (⟨a, score, ms⟩ :: l.filter (·.antenna ≠ a)) := by
  have hlen := dropCandidate_length_lt hk ha
  refine ⟨placeCandidate_kept (dropCandidate_kept hl) (by have := hl.length; omega) dropCandidate_antenna, ?_⟩
  rw [← dropCandidate_eq]
  exact placeCandidate_perm _ _

theorem Survey.add_room (hn : v.candidates.length < 4) (k : Candidate) (forced : Bool) :
    v.add k forced = { v with candidates := placeCandidate k v.candidates } := by
  rw [Survey.add, if_pos (by simpa [Config.candidatePlaces] using hn)]

/-- The list after its last candidate has made room. -/
theorem Survey.remove_last {last : Candidate} (hl : ListKept v.candidates) (h : v.candidates.getLast? = some last) :
    v.remove last.antenna =
      { v with candidates := v.candidates.dropLast,
               lead := if v.lead = some last.antenna then none else v.lead,
               leadCount := if v.lead = some last.antenna then 0 else v.leadCount } := by
  unfold Survey.remove
  simp only [dropCandidate_eq]
  rw [hl.drop_last h]
  split <;> rfl

theorem Survey.add_full {last : Candidate} (hn : v.candidates.length = 4) (h : v.candidates.getLast? = some last)
    (k : Candidate) (forced : Bool) :
    v.add k forced = if forced = true ∨ last.score < k.score then
      { v.remove last.antenna with candidates := placeCandidate k (v.remove last.antenna).candidates } else v := by
  rw [Survey.add, if_neg (by simp [Config.candidatePlaces, hn]), h]
  simp only [Bool.or_eq_true, decide_eq_true_iff]

theorem dropLast_kept (hl : ListKept l) : ListKept l.dropLast := hl.sublist (List.dropLast_sublist l)

/-- A candidate placed in the place of the last one. -/
theorem replaceLast_kept (hl : ListKept l) (hn : l.length = 4) (ha : ∀ k ∈ l, k.antenna ≠ a) (score : Byte)
    (ms : Nat) : ListKept (placeCandidate ⟨a, score, ms⟩ l.dropLast) :=
  placeCandidate_kept (dropLast_kept hl) (by simp [hn]) fun k hk => ha k (List.dropLast_subset l hk)

/-- What an update or a Seek makes of a list, whatever it holds (R62, R74). -/
theorem Survey.sampled_kept (hl : ListKept v.candidates) (a : AntennaNo) (score : Option Candidate → Byte) (forced : Bool)
    (ms : Nat) :
    ListKept (match findCandidate a v.candidates with
      | some k => v.rescore ⟨a, score (some k), ms⟩
      | none => v.add ⟨a, score none, ms⟩ forced).candidates := by
  cases hf : findCandidate a v.candidates with
  | some k =>
    exact (rescore_kept hl (List.mem_of_find?_eq_some hf) (by simpa using List.find?_some hf) _ _).1
  | none =>
    have ha : ∀ k ∈ v.candidates, k.antenna ≠ a := by simpa [findCandidate] using hf
    by_cases hn : v.candidates.length < 4
    · rw [Survey.add_room hn]; exact placeCandidate_kept hl hn ha
    · have h4 : v.candidates.length = 4 := by have := hl.length; omega
      obtain ⟨last, hlast⟩ : ∃ last, v.candidates.getLast? = some last := by
        cases hc : v.candidates with
        | nil => simp [hc] at h4
        | cons y ys => exact ⟨_, List.getLast?_cons⟩
      rw [Survey.add_full h4 hlast, Survey.remove_last hl hlast]
      by_cases hin : forced = true ∨ last.score < score none
      · rw [if_pos hin]; exact replaceLast_kept hl h4 ha _ _
      · rw [if_neg hin]; exact hl

theorem Survey.update_eq (v : Survey) (a : AntennaNo) (q : Byte) (n ms : Nat) :
    v.update a q n ms = match findCandidate a v.candidates with
      | some k => v.rescore ⟨a, smooth n k.score q, ms⟩
      | none => v.add ⟨a, q, ms⟩ false := rfl

theorem Survey.force_eq (v : Survey) (a : AntennaNo) (q : Byte) (ms : Nat) :
    v.force a q ms = match findCandidate a v.candidates with
      | some _ => v.rescore ⟨a, q, ms⟩
      | none => v.add ⟨a, q, ms⟩ true := rfl

theorem Survey.update_kept (hl : ListKept v.candidates) (a : AntennaNo) (q : Byte) (n ms : Nat) :
    ListKept (v.update a q n ms).candidates := by
  have h := Survey.sampled_kept hl a (fun k => (k.map fun k => smooth n k.score q).getD q) false ms
  rw [Survey.update_eq]
  cases hf : findCandidate a v.candidates <;> rw [hf] at h <;> exact h

theorem Survey.force_kept (hl : ListKept v.candidates) (a : AntennaNo) (q : Byte) (ms : Nat) :
    ListKept (v.force a q ms).candidates := by
  have h := Survey.sampled_kept hl a (fun _ => q) true ms
  rw [Survey.force_eq]
  cases hf : findCandidate a v.candidates <;> rw [hf] at h <;> exact h

theorem smooth_zero (score q : Byte) : smooth 0 score q = q := by simp [smooth]

theorem smooth_frozen {n : Nat} (h : 8 ≤ n) (score q : Byte) : smooth n score q = score := by
  rw [smooth, if_neg (by omega), if_pos h]

/-- Settles O43: the steps of a score; then a candidate that the list holds, one that finds room, and one in a full list. -/
theorem scoresAndCandidatesFollowTheSamples : Obligations.ScoresAndCandidatesFollowTheSamples := by
  refine ⟨fun n score q => ⟨fun h => by rw [h, smooth_zero], fun h1 h7 => smooth_toNat score q h1 h7,
    fun h => smooth_frozen h score q⟩, fun v a q n ms hl => ⟨hl.1 |> fun _ => Survey.update_kept hl a q n ms,
    Survey.force_kept hl a q ms, fun k hk ha => ?_, fun hno hn => ?_, fun last hno hn hlast => ?_⟩⟩
  · have hf := findCandidate_of_mem hl hk ha
    rw [Survey.update_eq, Survey.force_eq, hf]
    exact ⟨(rescore_kept hl hk ha _ _).2, (rescore_kept hl hk ha _ _).2, rfl, rfl⟩
  · rw [Survey.update_eq, Survey.force_eq, findCandidate_of_not hno]
    simp only [Survey.add_room hn]
    exact ⟨placeCandidate_perm _ _, trivial, trivial⟩
  · rw [Survey.update_eq, Survey.force_eq, findCandidate_of_not hno]
    simp only [Survey.add_full hn hlast, Survey.remove_last hl hlast, if_true, true_or, Bool.false_eq_true, false_or]
    exact ⟨fun h => if_neg (by simpa using h), fun h => if_pos h, placeCandidate_perm _ _, trivial⟩

/-! ### Sightings (R58, R59, R61) -/

theorem Entry.servedAt_iff : x.servedAt a = true ↔ ∃ sl, x.serving = some (a, sl) := by
  unfold Entry.servedAt
  cases x.serving with
  | none => simp
  | some v => obtain ⟨b, sl⟩ := v; simp

/-- The survey items of an entry after a Sighting of quality `q` at antenna `a` (R61, R62). -/
def State.sampled (s : State) (x : Entry) (a : AntennaNo) (q : Byte) : Survey :=
  if x.servedAt a then x.survey.sampleServing q s.smoothing else x.survey.update a q s.smoothing s.candidateLifetime

/-- The state in which a Sighting's sample has been taken. -/
def State.sample (s : State) (e : EntryNo) (x : Entry) (a : AntennaNo) (q : Byte) : State :=
  { s with roster := s.roster.set e (some { x with survey := s.sampled x a q }) }

theorem State.sample_eq (he : s.entry e = some x) (a : AntennaNo) (q : Byte) :
    (if x.servedAt a then s.mapSurvey e (·.sampleServing q s.smoothing)
      else s.mapSurvey e (·.update a q s.smoothing s.candidateLifetime)) = s.sample e x a q := by
  unfold State.sample State.sampled
  split
  · rw [State.mapSurvey_eq he]
  · rw [State.mapSurvey_eq he]

theorem State.digestSighting_cases (he : s.entry e = some x) (a : AntennaNo) (q : Byte) :
    (x.state = .unattached → s.digestSighting e a q = s) ∧
    (x.state = .attaching ∨ x.state = .moving → s.digestSighting e a q = s.sample e x a q) ∧
    (x.state = .lost → s.digestSighting e a q = (s.sample e x a q).considerEvacuation e) ∧
    (x.state = .served → s.digestSighting e a q = (s.sample e x a q).considerServed e (x.servedAt a)) := by
  unfold State.digestSighting
  simp only [he, State.sample_eq he]
  cases x.state <;> simp

theorem State.considerServed_here {b : Bool} (h : b = true) :
    s.considerServed e b = ((s.considerDrain e).considerFade e).evaluate e := by
  subst h; rfl

theorem State.considerServed_away {b : Bool} (h : b = false) :
    s.considerServed e b = (s.considerDrain e).evaluate e := by
  subst h; rfl

/-- A Sighting that names an entry is digested for it. -/
theorem State.takeSighting_sights {f : SightingForm} (h : Sights s a f q e x) : s.takeSighting a f = s.digestSighting e a q := by
  obtain ⟨he, h⟩ := h
  cases f with
  | compact slot q' =>
    obtain ⟨rfl, sl, rfl, hs⟩ := h
    have hfind : ((number? 8 (byte sl)).bind fun sl => (s.slot a sl).entry?) = some e := by
      rw [number?_byte (by omega), Option.bind_some]; exact Slot.entry?_some.mpr hs
    rw [State.takeSighting, hfind]
  | extended id q' =>
    obtain ⟨rfl, hid, hlow⟩ := h
    rw [State.takeSighting, State.findId_some he hid hlow]

/-- Settles O44. -/
theorem sightingsAreDigested : Obligations.SightingsAreDigested := by
  intro s a
  refine ⟨fun slot q hfree => ?_, fun id q hu => ?_, fun f q e x h => ?_⟩
  · have hfind : ((number? 8 slot).bind fun sl => (s.slot a sl).entry?) = none := by
      cases hn : number? 8 slot with
      | none => rfl
      | some sl => rw [Option.bind_some, hfree sl (number?_some hn)]; rfl
    rw [State.takeSighting, hfind]; rfl
  · rw [State.takeSighting, State.findId_none.mpr hu]
  · obtain ⟨h1, h2, h3, h4⟩ := State.digestSighting_cases (q := q) h.1 a
    rw [State.takeSighting_sights h]
    refine ⟨Entry.servedAt_iff, h1, h2, h3, fun hst hhere => ?_, fun hst hhere => ?_⟩
    · rw [h4 hst, State.considerServed_here (Entry.servedAt_iff.mpr hhere)]; rfl
    · have hno : x.servedAt a = false := by rw [← Bool.not_eq_true]; exact mt Entry.servedAt_iff.mp hhere
      rw [h4 hst, State.considerServed_away hno]; rfl

/-! ### What follows a Sighting (R65 to R71) -/

theorem State.eligible_iff {t : AntennaSet} : s.eligible t k = true ↔
    (s.ant k.antenna).open = true ∧ (s.policy.get 4).toNat ≤ k.score.toNat ∧ t.getLsbD k.antenna = false := by
  simp only [State.eligible, Bool.and_eq_true, decide_eq_true_iff, Bool.not_eq_true', and_assoc]
  rfl

theorem State.bestCandidate_eq (he : s.entry e = some x) (t : AntennaSet) :
    s.bestCandidate e t = x.survey.candidates.find? (s.eligible t) := by
  rw [State.bestCandidate, he]

theorem State.requestOf_eq (s : State) (e : EntryNo) : s.requestOf e = s.queue.find? (·.entry = e) := by
  simp only [State.requestOf, beq_eq_decide]

theorem State.servedAtDraining_iff :
    s.servedAtDraining x = true ↔ ∃ a sl, x.serving = some (a, sl) ∧ (s.ant a).admin = .draining := by
  unfold State.servedAtDraining
  cases x.serving with
  | none => simp
  | some v => obtain ⟨b, sl⟩ := v; simp

theorem State.queued_false : s.queued e = false ↔ ¬ HasRequest s e := by
  rw [← Bool.not_eq_true, State.queued_iff]

theorem State.considerDrain_eq (he : s.entry e = some x) : s.considerDrain e =
    if (∃ a sl, x.serving = some (a, sl) ∧ (s.ant a).admin = .draining) ∧ x.context = none ∧ ¬ HasRequest s e ∧
      s.bestTarget e 0 ≠ none
    then s.raiseRequest e ⟨.drain, none, optionBit (x.serving.map (·.1))⟩ else s := by
  unfold State.considerDrain
  simp only [he]
  refine if_congr ?_ rfl rfl
  simp only [Bool.and_eq_true, Bool.not_eq_true', Option.isNone_iff_eq_none, State.servedAtDraining_iff, State.queued_false,
    Option.isSome_iff_ne_none, and_assoc]

theorem State.faded_iff :
    s.faded x = true ↔ ∃ v, x.survey.servingScore = some v ∧ v.toNat < (s.policy.get 3).toNat := by
  unfold State.faded
  cases x.survey.servingScore with
  | none => simp
  | some v =>
    simp only [State.fadeFloor, State.item, Option.some.injEq, exists_eq_left']
    exact decide_eq_true_iff

theorem State.fadeMayJoin_iff :
    s.fadeMayJoin e = true ↔ ∀ r, s.queue.find? (·.entry = e) = some r → r.cause = .survey := by
  unfold State.fadeMayJoin
  rw [State.requestOf_eq]
  cases s.queue.find? (·.entry = e) with
  | none => simp
  | some r => simp

theorem State.considerFade_eq (he : s.entry e = some x) : s.considerFade e =
    if (∃ v, x.survey.servingScore = some v ∧ v.toNat < (s.policy.get 3).toNat) ∧ s.bestTarget e 0 ≠ none ∧
      x.pinned = false ∧ x.posted = none ∧ x.context = none ∧ ∀ r, s.queue.find? (·.entry = e) = some r → r.cause = .survey
    then s.raiseRequest e ⟨.fade, none, 0⟩ else s := by
  unfold State.considerFade
  simp only [he]
  refine if_congr ?_ rfl rfl
  simp only [Bool.and_eq_true, Bool.not_eq_true', Option.isNone_iff_eq_none, State.faded_iff, State.fadeMayJoin_iff,
    Option.isSome_iff_ne_none, and_assoc]

theorem State.considerEvacuation_eq (he : s.entry e = some x) : s.considerEvacuation e =
    if x.context = none ∧ ¬ HasRequest s e ∧ s.bestTarget e 0 ≠ none then s.raiseRequest e ⟨.evacuation, none, 0⟩ else s := by
  unfold State.considerEvacuation State.raiseEvacuation
  simp only [he]
  have hc : (x.context.isNone && !s.queued e) = true ↔ x.context = none ∧ ¬ HasRequest s e := by
    simp only [Bool.and_eq_true, Bool.not_eq_true', Option.isNone_iff_eq_none, State.queued_false]
  by_cases h : x.context = none ∧ ¬ HasRequest s e
  · rw [if_pos (hc.mpr h)]
    cases hb : s.bestTarget e 0 with
    | none => rw [if_neg (by simp)]
    | some k => rw [if_pos ⟨h.1, h.2, by simp⟩]
  · rw [if_neg (mt hc.mp h), if_neg (fun hh => h ⟨hh.1, hh.2.1⟩)]

theorem State.suppressed_iff : s.suppressed e x = true ↔ x.pinned = true ∨ x.posted ≠ none ∨ x.context ≠ none ∨
    HasRequest s e ∨ x.settleTimer ≠ none ∨ (∃ a sl, x.serving = some (a, sl) ∧ (s.ant a).admin = .draining) ∨
    x.survey.servingScore = none := by
  unfold State.suppressed
  simp only [Bool.or_eq_true, Option.isSome_iff_ne_none, Option.isNone_iff_eq_none, State.queued_iff,
    State.servedAtDraining_iff, or_assoc]

theorem State.evaluate_suppressed (he : s.entry e = some x) (h : s.suppressed e x = true) :
    s.evaluate e = { s with roster := s.roster.set e (some { x with survey := x.survey.resetLead }) } := by
  unfold State.evaluate
  simp only [he, if_pos h]
  exact State.mapSurvey_eq he _

theorem Survey.countLead_below {score : Byte} {margin : Nat} (hs : v.servingScore = some score)
    (h : k.score.toNat < min 255 (score.toNat + margin)) : v.countLead (some k) margin = v.resetLead := by
  simp only [Survey.countLead, hs, if_pos h]

theorem Survey.countLead_leads {score : Byte} {margin : Nat} (hs : v.servingScore = some score)
    (h : min 255 (score.toNat + margin) ≤ k.score.toNat) :
    v.countLead (some k) margin = { v with
      lead := some k.antenna
      leadCount := if v.lead = some k.antenna then v.leadCount + 1 else 1 } := by
  simp only [Survey.countLead, hs, if_neg (Nat.not_lt.mpr h)]
  by_cases hl : v.lead = some k.antenna
  · rw [if_pos hl, if_pos hl, ← hl]
  · rw [if_neg hl, if_neg hl]

/-- Survey evaluation that is not suppressed (R67, R68). -/
theorem State.evaluate_counted (he : s.entry e = some x) (h : s.suppressed e x ≠ true) :
    s.evaluate e =
      let v := x.survey.countLead (s.bestCandidate e 0) (s.policy.get 0).toNat
      if (s.policy.get 1).toNat + 1 ≤ v.leadCount then
        State.raiseRequest { s with roster := s.roster.set e (some { x with survey := v.resetLead }) } e ⟨.survey, none, 0⟩
      else { s with roster := s.roster.set e (some { x with survey := v }) } := by
  unfold State.evaluate
  simp only [he, if_neg h, State.mapSurvey_eq he]
  rfl

/-- Settles O45: the best target, the Drain, Fade and Evacuation requests, and the survey evaluation. -/
theorem sightingsRaiseTheirRequests : Obligations.SightingsRaiseTheirRequests := by
  intro s e x he
  refine ⟨fun t bs k as hc hb hk => ?_, fun t hno => ?_, fun a sl hs hd hx hr hb => ?_, fun h => ?_, fun h => ?_, fun h => ?_,
    fun h => ?_, fun h => ?_, fun h => ?_, fun h hb => ?_, fun k score h hb hsc => ⟨fun hlt => ?_, fun hle => ⟨fun hn => ?_,
      fun hn => ?_⟩⟩⟩
  · have hbest : s.bestCandidate e t = some k := by
      rw [State.bestCandidate_eq he, List.find?_eq_some_iff_append]
      exact ⟨State.eligible_iff.mpr hk, bs, as, hc, fun b hb' => by simpa using mt State.eligible_iff.mp (hb b hb')⟩
    exact ⟨hbest, by rw [State.bestTarget, hbest]; rfl⟩
  · have hbest : s.bestCandidate e t = none := by
      rw [State.bestCandidate_eq he, List.find?_eq_none]
      exact fun k hk => mt State.eligible_iff.mp (hno k hk)
    exact ⟨hbest, by rw [State.bestTarget, hbest]; rfl⟩
  · rw [State.considerDrain_eq he, if_pos ⟨⟨a, sl, hs, hd⟩, hx, hr, hb⟩, hs]; rfl
  · rw [State.considerDrain_eq he, if_neg]
    rintro ⟨h1, h2, h3, h4⟩
    rcases h with h | h | h | h
    exacts [h h1, h h2, h3 h, h4 h]
  · rw [State.considerFade_eq he, if_pos h]
  · rw [State.considerFade_eq he, if_neg h]
  · rw [State.considerEvacuation_eq he, if_pos h]
  · rw [State.considerEvacuation_eq he, if_neg h]
  · exact State.evaluate_suppressed he (State.suppressed_iff.mpr h)
  · rw [State.evaluate_counted he (mt State.suppressed_iff.mp h), hb]
    exact if_neg (by show ¬ _ ≤ 0; omega)
  all_goals rw [State.evaluate_counted he (mt State.suppressed_iff.mp h), hb]
  · rw [Survey.countLead_below hsc hlt]
    exact if_neg (by show ¬ _ ≤ 0; omega)
  all_goals rw [Survey.countLead_leads hsc hle]
  · exact if_neg (Nat.not_le.mpr hn)
  · exact if_pos hn

end Sys2Proof.Machine
end

section
/-! PROOFS. Seeks, Arrivals, the completion of a transaction, Sign-offs and the timers (R12 to R17, R63, R72 to R77, R86, R100 to R104, R109). -/

namespace Sys2Proof.Machine

variable {s : State} {a b : AntennaNo} {sl : SlotNo} {e : EntryNo} {x z : Entry} {c : ContextNo} {y : Context} {q : Byte}
  {id : BeltpackId}

/-! ### Seeks (R72 to R77) -/

theorem State.takeSighting_extended (h : s.findId id = some e) (a : AntennaNo) (q : Byte) :
    s.takeSighting a (.extended id q) = s.digestSighting e a q := by
  rw [State.takeSighting, h]

theorem State.takeSeek_invalid (h : invalidId id = true) (a : AntennaNo) (q : Byte) : s.takeSeek a id q = s.latchStray := by
  rw [State.takeSeek, if_pos h]

theorem State.takeSeek_unknown (hv : ¬ invalidId id = true) (h : UnknownId s id) (a : AntennaNo) (q : Byte) :
    s.takeSeek a id q = s.hearStranger id a q := by
  rw [State.takeSeek, if_neg hv, State.findId_none.mpr h]

theorem State.takeSeek_known (hv : ¬ invalidId id = true) (h : HasId s id e x) (a : AntennaNo) (q : Byte) :
    s.takeSeek a id q = if x.admission = .barred then s else s.seekEntry e x a q := by
  rw [State.takeSeek, if_neg hv, State.findId_hasId h]
  simp only [h.1]

theorem Context.restarts_iff : y.restarts a = true ↔ y.target = some a ∧ y.phase = .arrival ∧ y.restartUsed = false := by
  simp [Context.restarts, and_assoc]

theorem State.seekEvacuation_eq (he : s.entry e = some x) (a : AntennaNo) (q : Byte) :
    s.seekEvacuation e a q = State.raiseRequest
      { s with roster := s.roster.set e (some { x with survey := x.survey.force a q ((s.policy.get 9).toNat * 100) }) } e
      ⟨.evacuation, some a, 0⟩ := by
  rw [State.seekEvacuation, State.mapSurvey_eq he]; rfl

/-- A Served beltpack that seeks elsewhere is made Lost, its slot released, and an Evacuation raised (R12, R75). -/
theorem State.leftWithoutHandoff_eq (he : s.entry e = some x) (b : AntennaNo) (sl : SlotNo) (a : AntennaNo) (q : Byte) :
    s.leftWithoutHandoff e b sl a q = State.raiseRequest
      { s.releaseSlot b sl with
        roster := s.roster.set e (some
          { x with state := .lost, serving := none, settleTimer := none,
                   survey := ({ x.survey with servingScore := none, lead := none, leadCount := 0 } : Survey).force a q
                     ((s.policy.get 9).toNat * 100),
                   lostTimer := some ((s.policy.get 10).toNat * 1000) })
        link := s.link.queueNotice (.lost e x.id (some b)) } e
      ⟨.evacuation, some a, 0⟩ := by
  have he' : (s.releaseSlot b sl).entry e = some x := by rw [State.releaseSlot_eq]; exact he
  rw [State.leftWithoutHandoff, State.loseServing_eq he',
    State.seekEvacuation_eq (by rw [State.entry_mk]; exact get_set_self _ _ _), set_set, State.releaseSlot_eq]

theorem State.offerSeek_not (h : s.ctx c = some y) (hr : ¬ y.restarts a = true) : s.offerSeek c a = s := by
  simp only [State.offerSeek, h, if_neg hr]

/-- The seek restart (R102). -/
theorem State.offerSeek_restarts (h : s.ctx c = some y) (hr : y.restarts a = true) (ht : y.target = some b)
    (hs : y.targetSlot = some sl) (he : s.entry y.entry = some z) :
    s.offerSeek c a = State.postOrder
      { s with contexts := s.contexts.set c (some
          { y with restartUsed := true, arrivalTimer := some s.arrivalWindow, awaited := some ⟨.summon, b⟩ }) } b
      ⟨.summon, z.id, sl, .context c⟩ := by
  simp only [State.offerSeek, h, if_pos hr]
  have h' : State.ctx { s with
      contexts := s.contexts.set c (some { y with restartUsed := true, arrivalTimer := some s.arrivalWindow }) } c =
      some { y with restartUsed := true, arrivalTimer := some s.arrivalWindow } := get_set_self _ _ _
  rw [State.mapCtx_eq h, State.postSummon_eq h' ht hs (by exact he), set_set]

/-- A Seek of an Admitted entry, by its transaction and its state (R72). -/
theorem State.seekEntry_cases (s : State) (e : EntryNo) (x : Entry) (a : AntennaNo) (q : Byte) :
    (∀ c, x.context = some c → s.seekEntry e x a q = (s.offerSeek c a).digestSighting e a q) ∧
    (x.context = none → x.state = .unattached → s.seekEntry e x a q = s.raiseRequest e ⟨.attach, some a, 0⟩) ∧
    (x.context = none → x.state = .lost → s.seekEntry e x a q = s.seekEvacuation e a q) ∧
    ∀ b sl, x.context = none → x.state = .served → x.serving = some (b, sl) →
      s.seekEntry e x a q = if b = a then s.digestSighting e a q else s.leftWithoutHandoff e b sl a q := by
  unfold State.seekEntry
  refine ⟨fun c hc => ?_, fun hc hst => ?_, fun hc hst => ?_, fun b sl hc hst hs => ?_⟩
  · simp only [hc]
  · simp only [hc, hst]
  · simp only [hc, hst]
  · simp only [hc, hst, hs]

/-- Settles O46. -/
theorem seeksAreAnswered : Obligations.SeeksAreAnswered := by
  intro s a id q
  refine ⟨fun h => State.takeSeek_invalid ((invalidId_iff id).mpr h) a q, fun h0 hF => ?_⟩
  have hv : ¬ invalidId id = true := fun h => ((invalidId_iff id).mp h).elim h0 hF
  refine ⟨fun hu hm => ?_, fun hu hm => ?_, fun e x h => ⟨fun hadm => ?_, fun hadm => ⟨fun hc hst => ?_, fun hc hst => ?_,
    fun sl hc hst hs => ?_, fun b sl hc hst hs hb => ?_, fun c y hc hy => ⟨fun hr => ?_, fun sl z hr hs hz => ?_⟩⟩⟩⟩
  · rw [State.takeSeek_unknown hv hu, State.hearStranger, if_pos (List.contains_iff_mem.mpr hm)]
  · rw [State.takeSeek_unknown hv hu, State.hearStranger, if_neg (mt List.contains_iff_mem.mp hm)]; rfl
  · rw [State.takeSeek_known hv h, if_pos hadm]
  all_goals
    obtain ⟨hbusy, hattach, hlost, hserved⟩ := s.seekEntry_cases e x a q
    rw [State.takeSeek_known hv h, if_neg (by simp [hadm])]
  · rw [hattach hc hst]
  · rw [hlost hc hst, State.seekEvacuation_eq h.1]
  · rw [hserved a sl hc hst hs, if_pos rfl, State.takeSighting_extended (State.findId_hasId h)]
  · obtain rfl := h.2.1
    rw [hserved b sl hc hst hs, if_neg hb, State.leftWithoutHandoff_eq h.1]
  · rw [hbusy c hc, State.offerSeek_not hy (mt Context.restarts_iff.mp hr),
      State.takeSighting_extended (State.findId_hasId h)]
  · rw [hbusy c hc, State.offerSeek_restarts hy (Context.restarts_iff.mpr hr) hr.1 hs hz]
    refine (State.takeSighting_extended ?_ a q).symm
    rw [State.postOrder_eq]; exact State.findId_hasId h

/-! ### Arrivals (R158, R100, R101) -/

theorem Context.awaitsArrival_iff : y.awaitsArrival a sl = true ↔ y.target = some a ∧ y.targetSlot = some sl ∧
    (y.phase = .cue ∨ y.phase = .summon ∨ y.phase = .arrival) := by
  simp [Context.awaitsArrival, and_assoc, or_assoc]

theorem Context.fallsBack_iff : y.fallsBack a sl = true ↔ y.kind = .move ∧ y.source = some (a, sl) ∧ y.phase = .arrival := by
  simp [Context.fallsBack, and_assoc]

/-- An Arrival of a beltpack in a transaction is offered to its context (R158). -/
theorem State.takeArrival_offered (h : HasId s id e x) (hc : x.context = some c) (hy : s.ctx c = some y) (a : AntennaNo)
    (sl : SlotNo) : s.takeArrival a id (byte sl) = s.offerArrival c y a sl := by
  rw [State.takeArrival, State.findId_hasId h, Option.bind_some, h.1, Option.bind_some, hc, number?_byte (by omega)]
  simp only [hy]

/-- The state of an Arrival after the target's part of it: the awaited order is left, the slot Occupied, the beltpack
Served, and Beltpack Attached queued (R8, R100). -/
theorem State.takeTargetArrival_eq (hy : s.ctx c = some y) (he : s.entry y.entry = some z) (a : AntennaNo) (sl : SlotNo) :
    s.takeTargetArrival c y a sl =
      let u : State :=
        { s.stopAwaiting c with
          contexts := s.contexts.set c (some { y with arrivalTimer := none, awaited := none })
          antennas := s.antennas.set a { s.ant a with slots := (s.ant a).slots.set sl (.occupied y.entry) }
          link := if z.state = .attaching ∨ z.state = .lost then s.link.queueNotice (.attached y.entry z.id a sl) else s.link
          roster := s.roster.set y.entry (some (z.arrive a sl (y.source.map (·.1)))) }
      match y.kind, y.source with
      | .move, some (b, bsl) => u.beginRelease c b bsl
      | _, _ => u.complete c := by
  unfold State.takeTargetArrival
  simp only [State.letGo_eq hy, State.entry_mk]
  have he' : s.roster.get y.entry = some z := he
  rw [State.stopAwaiting_eq hy]
  simp only [he', State.setSlot_eq, State.mapEntry_mk (h := he'), State.notifyAttached_eq]
  rfl

theorem findCandidate_eq (a : AntennaNo) (l : List Candidate) : findCandidate a l = l.find? (·.antenna = a) := by
  unfold findCandidate
  congr 1

theorem Entry.arrive_eq (z : Entry) (a : AntennaNo) (sl : SlotNo) (b : Option AntennaNo) :
    z.arrive a sl b = { z with
      state := .served
      serving := some (a, sl)
      lostTimer := none
      windowExpired := false
      survey := ⟨(z.survey.candidates.find? (·.antenna = a)).map (·.score), z.survey.candidates.filter (·.antenna ≠ a), none,
        0, b.bind fun b => z.survey.servingScore.map fun v => (b, v)⟩ } := by
  unfold Entry.arrive Survey.arrive
  rw [dropCandidate_eq, findCandidate_eq]
  cases b with
  | none => rfl
  | some b => cases z.survey.servingScore <;> rfl

theorem Survey.completeMove_none {v : Survey} (h : v.former = none) (ms : Nat) : v.completeMove ms = v := by
  rw [Survey.completeMove, h]

/-- What an entry is when its transaction completes (R14, R104). -/
theorem Entry.complete_served (h : z.state = .served) (ms : Nat) :
    z.complete ms = { z with context := none, settleTimer := startTimer ms } := by
  rw [Entry.complete, h]

theorem Entry.complete_lost (h : z.state = .lost) (ms : Nat) :
    z.complete ms = if z.windowExpired then z.offAir else { z with context := none } := by
  rw [Entry.complete, h]

/-- The completion of a transaction whose beltpack is Served (R14, R104). -/
theorem State.complete_served (hy : s.ctx c = some y) (hz : s.entry y.entry = some z) (hst : z.state = .served) :
    s.complete c = { s with
      contexts := s.contexts.set c none
      roster := s.roster.set y.entry (some { z with
        context := none
        survey := z.survey.completeMove ((s.policy.get 9).toNat * 100)
        settleTimer := if (s.policy.get 5).toNat = 0 then none else some ((s.policy.get 5).toNat * 100) })
      link := s.link.queueNotice
        (.handoffDone y.entry z.id y.cause y.kind (y.source.map (·.1)) y.target y.targetSlot) } := by
  rw [State.complete_eq hy hz, Entry.complete_served (by exact hst), ← startTimer_scaled _ _ (by omega),
    if_neg (by simp [hst])]
  rfl

/-- The target's Arrival of a Move begins its Release phase (R100, R103). -/
theorem State.takeTargetArrival_move (hy : s.ctx c = some y) (hz : s.entry y.entry = some z) {bsl : SlotNo}
    (hk : y.kind = .move) (hs : y.source = some (b, bsl)) (a : AntennaNo) (sl : SlotNo) :
    s.takeTargetArrival c y a sl = State.releaseSlot
      { s.stopAwaiting c with
        contexts := s.contexts.set c (some
          { y with arrivalTimer := none, phase := .release, awaited := some ⟨.release, b⟩ })
        antennas := s.antennas.set a { s.ant a with slots := (s.ant a).slots.set sl (.occupied y.entry) }
        link := if z.state = .attaching ∨ z.state = .lost then s.link.queueNotice (.attached y.entry z.id a sl) else s.link
        roster := s.roster.set y.entry (some (z.arrive a sl (some b))) } b bsl := by
  rw [State.takeTargetArrival_eq hy hz]
  simp only [hk, hs, Option.map_some]
  rw [State.beginRelease, State.mapCtx_mk (h := get_set_self _ _ _), set_set]

/-- The Arrival of a transaction without a source completes it (R100, R104). -/
theorem State.takeTargetArrival_sourceless (hy : s.ctx c = some y) (hz : s.entry y.entry = some z) (hs : y.source = none)
    (a : AntennaNo) (sl : SlotNo) :
    s.takeTargetArrival c y a sl =
      { s.stopAwaiting c with
        contexts := s.contexts.set c none
        antennas := s.antennas.set a { s.ant a with slots := (s.ant a).slots.set sl (.occupied y.entry) }
        link := (if z.state = .attaching ∨ z.state = .lost then s.link.queueNotice (.attached y.entry z.id a sl)
          else s.link).queueNotice (.handoffDone y.entry z.id y.cause y.kind none y.target y.targetSlot)
        roster := s.roster.set y.entry (some { z.arrive a sl none with
          context := none
          settleTimer := if (s.policy.get 5).toNat = 0 then none else some ((s.policy.get 5).toNat * 100) }) } := by
  rw [State.takeTargetArrival_eq hy hz]
  simp only [hs, Option.map_none]
  split
  next h => cases h
  next =>
    have hd : (z.arrive a sl none).survey.former = none := by rw [Entry.arrive_eq]; rfl
    refine Eq.trans (State.complete_served (z := z.arrive a sl none) (get_set_self _ _ _) (get_set_self _ _ _) rfl) ?_
    rw [Survey.completeMove_none hd, set_set, set_set, State.stopAwaiting_eq hy]
    rfl

/-- Settles O47. -/
theorem arrivalsServeTheBeltpack : Obligations.ArrivalsServeTheBeltpack := by
  intro s a id slot
  refine ⟨fun h => ?_, fun e x h hc => ?_, fun e x c y sl h hc hy hslot => ?_⟩
  · rw [State.takeArrival]
    rcases h with h | h
    · rw [State.findId_none.mpr h]; rfl
    · rw [number?_none h]
      split <;> rename_i h1 <;> simp at h1 <;> rfl
  · rw [State.takeArrival, State.findId_hasId h, Option.bind_some, h.1, Option.bind_some, hc]; rfl
  · rw [hslot, State.takeArrival_offered h hc hy, State.offerArrival]
    refine ⟨fun hno hf => ?_, fun hno hf => ?_, fun z haw hz => ?_⟩
    · rw [if_neg (mt Context.awaitsArrival_iff.mp hno), if_pos (Context.fallsBack_iff.mpr hf)]; rfl
    · rw [if_neg (mt Context.awaitsArrival_iff.mp hno), if_neg (mt Context.fallsBack_iff.mp hf)]; rfl
    · rw [if_pos (Context.awaitsArrival_iff.mpr haw)]
      refine ⟨fun b bsl hk hs => ?_, fun hk hs => ?_⟩
      · exact (State.takeTargetArrival_move hy hz hk hs a sl).trans (by rw [Entry.arrive_eq]; rfl)
      · rw [State.takeTargetArrival_sourceless hy hz hs a sl, haw.1, haw.2.1, Entry.arrive_eq]; rfl

/-! ### Completion (R64, R104) -/

/-- Settles O48. -/
theorem completionFreesTheContext : Obligations.CompletionFreesTheContext := by
  intro s c y z hy hz
  refine ⟨fun hf => Survey.completeMove_none hf _, fun a score hf hno => ?_, fun a score k hk hf ha => ?_, fun hst => ?_,
    fun hst hw => ?_, fun hst hw => ?_⟩
  · rw [Survey.completeMove, hf, Survey.update_eq]
    simp only [findCandidate_of_not hno]
  · rw [Survey.completeMove, hf]
    obtain ⟨j, hj⟩ : ∃ j, findCandidate a z.survey.candidates = some j := by
      rw [← Option.isSome_iff_exists, findCandidate, List.find?_isSome]
      exact ⟨k, hk, by simpa using ha⟩
    simp only [hj]
  · exact State.complete_served hy hz hst
  · rw [State.complete_eq hy hz, Entry.complete_lost (by exact hst), if_neg (by simp [hw]), if_neg (by simp [hw])]; rfl
  · rw [State.complete_eq hy hz, Entry.complete_lost (by exact hst), if_pos (by simp [hst, hw]), if_pos (by exact hw)]; rfl

/-! ### Sign-offs (R17, R109) -/

/-- What a Sign-off leaves alone before the entry goes off air. -/
theorem State.releaseAt_eq (s : State) (w : Option (AntennaNo × SlotNo)) :
    s.releaseAt w = { s with antennas := (s.releaseAt w).antennas, ports := (s.releaseAt w).ports } := by
  cases w with
  | none => rfl
  | some w => exact State.releaseSlot_eq _ _ _

theorem State.signOffTransaction_eq (s : State) (c : ContextNo) :
    s.signOffTransaction c = { s with
      contexts := (s.giveUpAttempt c).contexts.set c none
      antennas := (s.giveUpAttempt c).antennas
      ports := (s.giveUpAttempt c).ports } := by
  rw [State.signOffTransaction, State.giveUpAttempt_rest]; rfl

/-- The state in which a Sign-off has ended the transaction and released the serving slot (R109). -/
def State.signedOff (s : State) (x : Entry) : State :=
  State.releaseAt (match x.context with
    | none => s
    | some c => s.signOffTransaction c) x.serving

theorem State.signedOff_eq (s : State) (x : Entry) : s.signedOff x = { s with
    contexts := (s.signedOff x).contexts
    antennas := (s.signedOff x).antennas
    ports := (s.signedOff x).ports } := by
  unfold State.signedOff
  rw [State.releaseAt_eq]
  cases x.context with
  | none => rfl
  | some c => simp only [State.signOffTransaction_eq]

theorem State.takeSignOff_known (h : HasId s id e x) : s.takeSignOff id =
    if x.state = .unattached then (s.signedOff x).removeRequest e
    else ((s.signedOff x).removeRequest e).detachWith e .signOff := by
  rw [State.takeSignOff, State.findId_hasId h]
  simp only [h.1]
  rfl

/-- Settles O49. -/
theorem signOffTakesOffAir : Obligations.SignOffTakesOffAir := by
  intro s id
  refine ⟨fun hu => by rw [State.takeSignOff, State.findId_none.mpr hu], fun e x h => ?_⟩
  intro u v
  have hv : v = s.signedOff x := by
    simp only [v, u, State.signedOff]
    cases x.serving <;> cases x.context <;> rfl
  clear_value v
  subst hv
  have hq : (s.signedOff x).removeRequest e = { s.signedOff x with queue := s.queue.filter (·.entry ≠ e) } := by
    rw [State.removeRequest_eq, State.signedOff_eq]
  refine ⟨fun hst => ?_, fun hst => ?_⟩
  · rw [State.takeSignOff_known h, if_pos hst, hq]
  · have he : ((s.signedOff x).removeRequest e).entry e = some x := by
      rw [hq, State.signedOff_eq]; exact h.1
    have hl : (s.signedOff x).link = s.link := by rw [State.signedOff_eq]
    have hr : (s.signedOff x).roster = s.roster := by rw [State.signedOff_eq]
    obtain rfl := h.2.1
    rw [State.takeSignOff_known h, if_neg hst, State.detachWith_eq he, hq]
    simp only [hl, hr]
    rfl

/-! ### Timers (R13, R14, R63, R86, R101) -/

theorem Survey.remove_eq (v : Survey) (a : AntennaNo) : v.remove a = { v with
    candidates := v.candidates.filter (·.antenna ≠ a)
    lead := if v.lead = some a then none else v.lead
    leadCount := if v.lead = some a then 0 else v.leadCount } := by
  rw [Survey.remove, dropCandidate_eq]
  split <;> rfl

theorem findCandidate_isSome {l : List Candidate} :
    (findCandidate a l).isSome = true ↔ ∃ k ∈ l, k.antenna = a := by
  simp [findCandidate]

theorem exec_arrivalTimerExpiry (c : ContextNo) (s : State) :
    exec (.arrivalTimerExpiry c) s = .next (s.wake.expireArrivalTimer c) := rfl

theorem exec_lostWindowExpiry (e : EntryNo) (s : State) :
    exec (.lostWindowExpiry e) s = .next (s.wake.expireLostWindow e) := rfl

theorem exec_settleTimerExpiry (e : EntryNo) (s : State) :
    exec (.settleTimerExpiry e) s = .next (s.wake.mapEntry e fun x => { x with settleTimer := none }) := rfl

theorem exec_candidateLifetimeExpiry (e : EntryNo) (a : AntennaNo) (s : State) :
    exec (.candidateLifetimeExpiry e a) s =
      .next (s.wake.mapSurvey e fun v => if (findCandidate a v.candidates).isSome then v.remove a else v) := rfl

theorem State.mapEntry_absent (h : s.entry e = none) (f : Entry → Entry) : s.mapEntry e f = s := by
  rw [State.mapEntry, h]

theorem State.expireLostWindow_eq (he : s.entry e = some x) : s.expireLostWindow e =
    if x.lostTimer = none then s
    else if x.context = none then (s.removeRequest e).detachWith e .window
    else { s with roster := s.roster.set e (some { x with lostTimer := none, windowExpired := true }) } := by
  unfold State.expireLostWindow
  rw [State.mapEntry_eq he]
  simp only [he, Option.isNone_iff_eq_none, Option.isSome_iff_ne_none, ne_eq, ite_not]

theorem State.expireArrivalTimer_eq (hy : s.ctx c = some y) : s.expireArrivalTimer c =
    if y.arrivalTimer ≠ none ∧ y.phase = .arrival then (s.dispose c 0x08).settle else s := by
  rw [State.expireArrivalTimer, hy]
  refine if_congr ?_ rfl rfl
  simp [Option.isSome_iff_ne_none]

/-- The survey items after a candidate's lifetime has run out (R63). -/
theorem Survey.expire_eq (v : Survey) (a : AntennaNo) :
    (if (findCandidate a v.candidates).isSome then v.remove a else v) =
      let led : Prop := v.lead = some a ∧ ∃ k ∈ v.candidates, k.antenna = a
      { v with
        candidates := v.candidates.filter (·.antenna ≠ a)
        lead := if led then none else v.lead
        leadCount := if led then 0 else v.leadCount } := by
  by_cases h : ∃ k ∈ v.candidates, k.antenna = a
  · rw [if_pos (findCandidate_isSome.mpr h), Survey.remove_eq]
    simp only [h, and_true]
  · have hall : v.candidates.filter (·.antenna ≠ a) = v.candidates :=
      List.filter_eq_self.mpr fun k hk => by simpa using fun ha => h ⟨k, hk, ha⟩
    rw [if_neg (mt findCandidate_isSome.mp h), hall]
    simp only [h, and_false, if_false]

/-- Settles O50. -/
theorem timersExpire : Obligations.TimersExpire := by
  intro s
  refine ⟨fun c y hy ht hp => ?_, fun c hno => ?_, fun e x he => ⟨fun ht => ?_, fun ht hc => ?_, fun ht hc => ?_, ?_,
    fun a => ?_⟩, fun e a he => ⟨?_, ?_, ?_⟩, fun e => rfl⟩
  · rw [exec_arrivalTimerExpiry, State.expireArrivalTimer_eq (s := s.wake) hy, if_pos ⟨ht, hp⟩]
  · rw [exec_arrivalTimerExpiry]
    cases hy : s.ctx c with
    | none => rw [State.expireArrivalTimer, State.ctx_wake, hy]
    | some y =>
      rw [State.expireArrivalTimer_eq (s := s.wake) hy, if_neg]
      rintro ⟨h1, h2⟩
      exact (hno y hy).elim h1 fun h => h h2
  · rw [exec_lostWindowExpiry, State.expireLostWindow_eq (s := s.wake) he, if_pos ht]
  · rw [exec_lostWindowExpiry, State.expireLostWindow_eq (s := s.wake) he, if_neg ht, if_neg hc]; rfl
  · rw [exec_lostWindowExpiry, State.expireLostWindow_eq (s := s.wake) he, if_neg ht, if_pos hc,
      State.detachWith_eq (s := s.wake.removeRequest e) he, State.removeRequest_eq]
    rfl
  · rw [exec_settleTimerExpiry, State.mapEntry_eq (s := s.wake) he]; rfl
  · rw [exec_candidateLifetimeExpiry, State.mapSurvey_eq (s := s.wake) he, Survey.expire_eq]; rfl
  · rw [exec_lostWindowExpiry, State.expireLostWindow, State.entry_wake, he]
  · rw [exec_settleTimerExpiry, State.mapEntry_absent (s := s.wake) he]
  · rw [exec_candidateLifetimeExpiry, State.mapSurvey, State.mapEntry_absent (s := s.wake) he]

end Sys2Proof.Machine
end

section
/-! The choice of a target and its test (R94 to R96). -/

namespace Sys2Proof.Machine

variable {s t u : State} {a b : AntennaNo} {sl : SlotNo} {e : EntryNo} {x z : Entry} {c : ContextNo} {y : Context}
  {first : Bool}

/-- The state with a context that has taken a target. -/
abbrev State.aimed (s : State) (c : ContextNo) (y : Context) (target : Option AntennaNo) : State :=
  { s with contexts := s.contexts.set c (some { y with target := target }) }

theorem State.aimed_ctx (s : State) (c : ContextNo) (y : Context) (target : Option AntennaNo) :
    (s.aimed c y target).ctx c = some { y with target := target } := get_set_self _ _ _

theorem State.chooseTarget_eq (s : State) (y : Context) (first : Bool) : s.chooseTarget y first =
    (y.explicit.filter fun a : AntennaNo => first && !y.exclusion.getLsbD a).or (s.bestTarget y.entry (y.exclusion ||| y.tried)) := by
  unfold State.chooseTarget
  cases first with
  | false => cases y.explicit <;> simp
  | true =>
    cases y.explicit with
    | none => rfl
    | some a => cases hx : y.exclusion.getLsbD a <;> simp only [inSet, hx, Option.filter] <;> rfl

theorem State.tryTarget_none (h : s.ctx c = some y) (hc : s.chooseTarget y first = none) :
    s.tryTarget c first = (s.aimed c y none, 0x80) := by
  simp only [State.tryTarget, h, hc, State.mapCtx_eq h]
  rfl

theorem State.tryTarget_some (h : s.ctx c = some y) (hc : s.chooseTarget y first = some a) :
    s.tryTarget c first = (s.aimed c y (some a)).seekAdmission c y a := by
  simp only [State.tryTarget, h, hc, State.mapCtx_eq h]

theorem Antenna.admissionTest_eq (r : Antenna) (e : EntryNo) (groups : List Group) :
    r.admissionTest e groups =
      match r.slotCheckFails e, r.laneCheckFails groups with
      | true, true => 0x60
      | true, false => 0x40
      | false, true => 0x20
      | false, false => 0 := by
  unfold Antenna.admissionTest
  cases r.slotCheckFails e <;> cases r.laneCheckFails groups <;> rfl

/-- The state after an admission that succeeds: the slot claimed and a Reserve posted (R46, R47, R95). -/
abbrev State.admitted (s : State) (c : ContextNo) (y : Context) (x : Entry) (a : AntennaNo) (sl : SlotNo) : State :=
  State.postOrder
    { s.claim a sl y.entry (presentGroups x.groupA x.groupB) with
      contexts := s.contexts.set c (some
        { y with target := some a, targetSlot := some sl, awaited := some ⟨.reserve, a⟩ }) } a
    ⟨.reserve x.groupA x.groupB, x.id, sl, .context c⟩

theorem State.tryTarget_admitted (h : s.ctx c = some y) (hc : s.chooseTarget y first = some a)
    (he : s.entry y.entry = some x) (ho : (s.ant a).open = true)
    (ht : (s.ant a).admissionTest y.entry (presentGroups x.groupA x.groupB) = 0) (hf : (s.ant a).lowestFree = some sl) :
    s.tryTarget c first = (s.admitted c y x a sl, 0) := by
  rw [State.tryTarget_some h hc]
  refine (State.seekAdmission_room (s := s.aimed c y (some a)) (s.aimed_ctx c y (some a)) he ho ht hf).trans ?_
  simp only [State.admitted, State.claim_eq, set_set]
  rfl

/-- An admission test that finds nothing has found a Free slot. -/
theorem Antenna.lowestFree_of_admissionTest {r : Antenna} {groups : List Group} (h : r.admissionTest e groups = 0) :
    ∃ sl, r.lowestFree = some sl ∧ r.holds e = false ∧ r.laneCheckFails groups = false := by
  have hs : r.slotCheckFails e = false ∧ r.laneCheckFails groups = false := by
    rw [Antenna.admissionTest_eq] at h
    cases hs : r.slotCheckFails e <;> cases hl : r.laneCheckFails groups <;> simp [hs, hl] at h
    exact ⟨rfl, rfl⟩
  obtain ⟨hf, hh⟩ := Bool.or_eq_false_iff.mp hs.1
  cases hl : r.lowestFree with
  | none => rw [hl] at hf; cases hf
  | some sl => exact ⟨sl, rfl, hh, hs.2⟩

/-- A choice of target finds conditions and changes the target alone, or it is admitted. -/
theorem State.tryTarget_cases (h : s.ctx c = some y) (first : Bool) :
    (∃ t k, k ≠ 0 ∧ s.tryTarget c first = (s.aimed c y t, k)) ∨
    ∃ a sl x, s.chooseTarget y first = some a ∧ s.entry y.entry = some x ∧ (s.ant a).open = true ∧
      (s.ant a).admissionTest y.entry (presentGroups x.groupA x.groupB) = 0 ∧ (s.ant a).lowestFree = some sl ∧
      s.tryTarget c first = (s.admitted c y x a sl, 0) := by
  cases hc : s.chooseTarget y first with
  | none => exact .inl ⟨none, 0x80, by decide, State.tryTarget_none h hc⟩
  | some a =>
    cases he : s.entry y.entry with
    | none =>
      refine .inl ⟨some a, 0x80, by decide, ?_⟩
      have he' : (s.aimed c y (some a)).entry y.entry = none := he
      rw [State.tryTarget_some h hc, State.seekAdmission, he']; rfl
    | some x =>
      cases ho : (s.ant a).open with
      | false =>
        refine .inl ⟨some a, 0x80, by decide, ?_⟩
        rw [State.tryTarget_some h hc, State.seekAdmission_closed (s := s.aimed c y (some a)) he ho]
      | true =>
        by_cases ht : (s.ant a).admissionTest y.entry (presentGroups x.groupA x.groupB) = 0
        · obtain ⟨sl, hl, -, -⟩ := Antenna.lowestFree_of_admissionTest ht
          exact .inr ⟨a, sl, x, rfl, rfl, ho, ht, hl, State.tryTarget_admitted h hc he ho ht hl⟩
        · refine .inl ⟨some a, _, ht, ?_⟩
          rw [State.tryTarget_some h hc, State.seekAdmission_found (s := s.aimed c y (some a)) he ho ht]
          rfl

/-- Settles O52. -/
theorem targetsAreChosenAndTested : Obligations.TargetsAreChosenAndTested := by
  intro s c y x first h he
  refine ⟨fun hc => State.tryTarget_none h ((State.chooseTarget_eq s y first).trans hc), fun a hc => ?_⟩
  have hchoose : s.chooseTarget y first = some a := (State.chooseTarget_eq s y first).trans hc
  have hslot := Antenna.slotCheckFails_iff (r := s.ant a) (e := y.entry)
  have hlane := Antenna.laneCheckFails_iff (r := s.ant a) (presentGroups x.groupA x.groupB)
  have htest := Antenna.admissionTest_eq (s.ant a) y.entry (presentGroups x.groupA x.groupB)
  have found {k : ConditionSet} (ho : (s.ant a).open = true)
      (hk : (s.ant a).admissionTest y.entry (presentGroups x.groupA x.groupB) = k) (hne : k ≠ 0) :
      s.tryTarget c first = (s.aimed c y (some a), k) := by
    subst hk
    rw [State.tryTarget_some h hchoose, State.seekAdmission_found (s := s.aimed c y (some a)) he ho hne]; rfl
  refine ⟨fun ho => ?_, fun ho h1 h2 => found ho ?_ (by decide), fun ho h1 h2 => found ho ?_ (by decide),
    fun ho h1 h2 => found ho ?_ (by decide), fun sl ho h1 h2 hf hlow => ?_⟩
  · rw [State.tryTarget_some h hchoose, State.seekAdmission_closed (s := s.aimed c y (some a)) he ho]
  · rw [htest, hslot.mpr h1, hlane.mpr h2]
  · rw [htest, hslot.mpr h1, Bool.eq_false_iff.mpr (mt hlane.mp h2)]
  · rw [htest, Bool.eq_false_iff.mpr (mt hslot.mp h1), hlane.mpr h2]
  · refine State.tryTarget_admitted h hchoose he ho ?_ (Antenna.lowestFree_some.mpr ⟨hf, hlow⟩)
    rw [htest, Bool.eq_false_iff.mpr (mt hslot.mp h1), Bool.eq_false_iff.mpr (mt hlane.mp h2)]

end Sys2Proof.Machine
end

section
/-! The dispatch ends before its bound: a request that goes weighs more than what its disposal makes ready (R88, R92, log entry 16). -/

namespace Sys2Proof.Machine

variable {s t u : State} {a b : AntennaNo} {sl : SlotNo} {e : EntryNo} {x z : Entry} {c : ContextNo} {y : Context}
  {first : Bool} {r : Request} {q : List Request}

/-! ### The weight of a queue -/

/-- What a request may still cause: a ready one goes once, and one whose cause is not Evict may displace a beltpack, whose
Evict request goes once. -/
def Request.weight (r : Request) : Nat := if r.notBefore = none then (if r.cause = .evict then 1 else 2) else 0

/-- The weight of a queue bounds the hand-overs that a dispatch makes. -/
def weight (q : List Request) : Nat := (q.map Request.weight).sum

theorem Request.weight_le (r : Request) : r.weight ≤ 2 := by
  unfold Request.weight; split <;> [split; skip] <;> omega

theorem weight_le (q : List Request) : weight q ≤ 2 * q.length := by
  induction q with
  | nil => exact Nat.le_refl 0
  | cons r q ih =>
    have hr := r.weight_le
    simp only [weight, List.map_cons, List.sum_cons, List.length_cons] at ih ⊢
    omega

theorem weight_placeRequest (r : Request) (q : List Request) : weight (placeRequest r q) = r.weight + weight q :=
  ((placeRequest_perm r q).map _).sum_eq

theorem weight_filter_le (p : Request → Bool) (q : List Request) : weight (q.filter p) ≤ weight q :=
  (List.filter_sublist.map _).sum_le_sum fun _ _ => Nat.zero_le _

theorem weight_dropRequest_le (e : EntryNo) (q : List Request) : weight (dropRequest e q) ≤ weight q := weight_filter_le _ _

/-- The requests of an entry leave with their weight. -/
theorem weight_dropRequest (hr : r ∈ q) : r.weight + weight (dropRequest r.entry q) ≤ weight q := by
  have hp := (List.perm_cons_erase hr).map Request.weight
  have hd : dropRequest r.entry q = dropRequest r.entry (q.erase r) := by
    obtain ⟨l₁, l₂, -, rfl, he⟩ := List.exists_erase_eq hr
    rw [he]
    simp [dropRequest]
  rw [hd]
  have := weight_dropRequest_le r.entry (q.erase r)
  have hq : weight q = r.weight + weight (q.erase r) := hp.sum_eq
  omega

/-! ### What raising, requeueing and disposal add -/

/-- The Evict request of a victim. -/
abbrev evictRaise (t : AntennaSet) : Raise := ⟨.evict, none, t⟩

theorem Request.weight_merge_evict (r : Request) (t : AntennaSet) : (r.merge (evictRaise t)).weight ≤ r.weight + 1 := by
  unfold Request.merge
  simp only
  split
  · exact Nat.le_add_left 1 _
  · exact Nat.le_succ _

theorem State.weight_raiseEvict (s : State) (v : EntryNo) (t : AntennaSet) :
    weight (s.raiseRequest v (evictRaise t)).queue ≤ weight s.queue + 1 := by
  have hnew (x : Entry) : ((evictRaise t).request v x.cls s.nextOrder).weight = 1 := rfl
  unfold State.raiseRequest
  split
  · exact Nat.le_succ _
  next x _ =>
    split
    · exact Nat.le_succ _
    · split
      next r hr =>
        have hmem : r ∈ s.queue := List.mem_of_find?_eq_some hr
        have := weight_dropRequest hmem
        have := r.weight_merge_evict t
        simp only [State.mergeRequest, weight_placeRequest]
        omega
      next =>
        simp only
        split
        · rw [State.enqueue_queue, weight_placeRequest, hnew]; omega
        · unfold State.raiseIntoFull
          split
          · exact Nat.le_succ _
          · split
            · rw [State.enqueue_queue, weight_placeRequest, State.removeRequest_queue, hnew]
              have := weight_dropRequest_le ‹Request›.entry s.queue
              omega
            · exact Nat.le_succ _

theorem State.weight_requeue (s : State) (y : Context) (n : Nat) (d : Bool) :
    weight (s.requeue y n d).queue = weight s.queue := by
  rw [State.requeue, State.enqueue_queue, weight_placeRequest]
  exact Nat.zero_add _

theorem State.endTransaction_queue (s : State) (c : ContextNo) : (s.endTransaction c).queue = s.queue := by
  rw [State.endTransaction_rest]

theorem State.giveUpAttempt_queue (s : State) (c : ContextNo) : (s.giveUpAttempt c).queue = s.queue := by
  rw [State.giveUpAttempt_rest]

theorem State.recordConditions_queue (s : State) (e : EntryNo) (k : ConditionSet) : (s.recordConditions e k).queue = s.queue := by
  unfold State.recordConditions; simp

theorem State.reportForced_queue (s : State) (y : Context) (k : Condition) (d : Decision) :
    (s.reportForced y k d).queue = s.queue := by
  unfold State.reportForced
  split
  · rfl
  · split <;> rfl

theorem State.stopAwaiting_queue (s : State) (c : ContextNo) : (s.stopAwaiting c).queue = s.queue := by
  cases h : s.ctx c with
  | none => rw [State.stopAwaiting, h]
  | some y => rw [State.stopAwaiting_eq h]

theorem State.postSummon_queue (s : State) (c : ContextNo) : (s.postSummon c).queue = s.queue := by
  unfold State.postSummon
  split
  · rfl
  · split
    · rw [State.postAwaited_rest]
    · rfl

theorem State.convert_queue (s : State) (c : ContextNo) (y : Context) : (s.convert c y).queue = s.queue := by
  unfold State.convert
  simp only
  split
  · rw [State.postSummon_queue, State.mapCtx_queue, State.stopAwaiting_queue, State.mapEntry_queue, State.mapCtx_queue]
  · rw [State.mapEntry_queue, State.mapCtx_queue]

theorem State.postFault_queue (s : State) (c : ContextNo) (y : Context) (k : Condition) : (s.postFault c y k).queue = s.queue := by
  unfold State.postFault
  simp only
  split
  · rw [State.endTransaction_queue, State.giveUpAttempt_queue]
  · rw [State.endTransaction_queue, State.queueNotice_queue, State.mapEntry_queue, State.giveUpAttempt_queue]

theorem State.moveOn_queue (s : State) (c : ContextNo) (y : Context) : (s.moveOn c y).queue = s.queue := by
  rw [State.moveOn, State.mapCtx_queue, State.giveUpAttempt_queue]

theorem State.tryTarget_queue (s : State) (c : ContextNo) (first : Bool) : (s.tryTarget c first).1.queue = s.queue := by
  rw [State.tryTarget_rest]

theorem State.decideReEnter_eq (s : State) (y : Context) : s.decideReEnter y =
    if y.retry + 1 ≤ s.retryLimit ∧ s.queue.length < 16 then .reEnter else .stop := by
  unfold State.decideReEnter State.queueHasRoom
  simp only [Bool.and_eq_true, decide_eq_true_eq]
  rfl

/-- A displacement is for a requester that has not displaced, and whose cause is not Evict, and takes the victim at its
target (R126). -/
theorem State.decideDisplace_displace {v : EntryNo} (h : s.decideDisplace y = .displace v) :
    y.displaced = false ∧ y.cause ≠ .evict ∧ s.queue.length < 16 ∧
      ∃ a, y.target = some a ∧ s.victim a y.cls = some v := by
  unfold State.decideDisplace at h
  split at h
  · cases h
  next w hw =>
    split at h
    next hroom =>
      obtain rfl : w = v := by injection h
      split at hw
      · cases hw
      next hno =>
        simp only [Bool.or_eq_true, beq_iff_eq, not_or, Bool.not_eq_true] at hno
        exact ⟨hno.1, hno.2, of_decide_eq_true hroom, Option.bind_eq_some_iff.mp hw⟩
    next => cases h

/-- Only NOSLOT under the Displace mode displaces (R122). -/
theorem State.decideDisposal_displace {k : Condition} {v : EntryNo} (h : s.decideDisposal y k = .displace v) :
    s.decideDisplace y = .displace v := by
  unfold State.decideDisposal at h
  split at h
  · cases h
  · split at h
    case h_5 => rw [State.decideReEnter_eq] at h; split at h <;> cases h
    case h_6 => exact h
    all_goals cases h

/-- The context that goes on to its next target (R124). -/
abbrev Context.movedOn (y : Context) : Context :=
  { y.givenUp with tried := y.tried ||| optionBit y.target, phase := .reserve }

theorem State.moveOn_movedOn (h : s.ctx c = some y) : (s.moveOn c y).ctx c = some y.movedOn := State.moveOn_ctx h

/-- A disposal makes one Evict request ready at most, and none for an Evict request. -/
theorem State.weight_disposeChain (n : Nat) : ∀ (s : State) (found : ConditionSet) (y : Context), s.ctx c = some y →
    weight (State.disposeChain n c found s).queue ≤ weight s.queue + if y.cause = .evict then 0 else 1 := by
  induction n with
  | zero => exact fun s _ y _ => Nat.le_add_right _ _
  | succ n ih =>
    intro s found y h
    rw [State.disposeChain, h]
    cases reportedCondition found with
    | none => exact Nat.le_add_right _ _
    | some k =>
      simp only
      generalize hd : (s.recordConditions y.entry found).decideDisposal y k = d
      generalize hu : (s.recordConditions y.entry found).reportForced y k d = u
      have huq : u.queue = s.queue := by rw [← hu, State.reportForced_queue, State.recordConditions_queue]
      have huc : u.ctx c = some y := by rw [← hu, State.reportForced_ctx, State.recordConditions_ctx, h]
      rw [← huq]
      cases d with
      | post => exact (State.postFault_queue u c y k).symm ▸ Nat.le_add_right _ _
      | stop =>
        simp only
        rw [State.endTransaction_queue, State.giveUpAttempt_queue]; exact Nat.le_add_right _ _
      | reEnter =>
        simp only [State.reEnter]
        rw [State.endTransaction_queue, State.weight_requeue, State.giveUpAttempt_queue]; exact Nat.le_add_right _ _
      | displace v =>
        rw [if_neg (State.decideDisplace_displace (State.decideDisposal_displace hd)).2.1]
        refine (State.weight_raiseEvict _ v _).trans ?_
        rw [State.endTransaction_queue, State.weight_requeue, State.giveUpAttempt_queue]
      | convert => exact (State.convert_queue u c y).symm ▸ Nat.le_add_right _ _
      | next =>
        simp only
        have hq : ((u.moveOn c y).tryTarget c false).1.queue = u.queue := by
          rw [State.tryTarget_queue, State.moveOn_queue]
        split
        · rw [hq]; exact Nat.le_add_right _ _
        next hne =>
          rcases State.tryTarget_cases (State.moveOn_movedOn huc) false with ⟨t, k', -, ht⟩ | ⟨a, sl, x, -, -, -, -, -, ht⟩
          · rw [ht] at hq ⊢
            rw [← hq]
            exact ih ((u.moveOn c y).aimed c y.movedOn t) k' { y.movedOn with target := t } (State.aimed_ctx _ c y.movedOn t)
          · rw [ht] at hne; exact absurd rfl hne

/-! ### The loop -/

/-- A hand-over lightens the queue. -/
theorem State.weight_handOver (hr : r ∈ s.queue) (hn : r.notBefore = none) (c : ContextNo) :
    weight (s.handOver c r).queue < weight s.queue := by
  have hw := weight_dropRequest hr
  have hpos : (if r.cause = .evict then 0 else 1) < r.weight := by
    rw [Request.weight, if_pos hn]; split <;> omega
  unfold State.handOver
  simp only
  split
  · rw [State.removeRequest_queue]; omega
  next y _ =>
    generalize hu : (((s.removeRequest r.entry).mapEntry r.entry (·.dispatch c r.fresh)).putCtx c (some (r.context y))) = u
    have huq : u.queue = dropRequest r.entry s.queue := by rw [← hu]; simp
    have huc : u.ctx c = some (r.context y) := by rw [← hu]; exact get_set_self _ _ _
    have hq := u.tryTarget_queue c true
    split
    · rw [hq, huq]; omega
    next hne =>
      rcases State.tryTarget_cases huc true with ⟨t, k, -, ht⟩ | ⟨a, sl, x, -, -, -, -, -, ht⟩
      · rw [ht] at hq ⊢
        have := State.weight_disposeChain disposalBound (u.aimed c (r.context y) t) k _ (State.aimed_ctx _ c _ t)
        have hcause : (r.context y).cause = r.cause := rfl
        simp only [huq, hcause] at this
        simp only [State.dispose]
        omega
      · rw [ht] at hne; exact absurd rfl hne

theorem State.dispatchOne_some (h : s.dispatchOne = some t) :
    ∃ c r, s.lowestContext = some c ∧ s.firstReady = some r ∧ t = s.handOver c r := by
  unfold State.dispatchOne at h
  split at h
  next c r hc hr => exact ⟨c, r, hc, hr, (Option.some.inj h).symm⟩
  next => cases h

theorem State.dispatchOne_none : s.dispatchOne = none ↔ Rested s := by
  have hc : s.lowestContext = none ↔ ∀ c, s.ctx c ≠ none := by
    rw [State.lowestContext, find_finRange_eq_none]
    simp only [Option.isNone_eq_false_iff, Option.isSome_iff_ne_none]
  have hr : s.firstReady = none ↔ ∀ r ∈ s.queue, r.notBefore ≠ none := by
    rw [State.firstReady, List.find?_eq_none]
    simp only [Option.isNone_iff_eq_none, ne_eq]
  rw [Rested, ← hc, ← hr, State.dispatchOne]
  cases s.lowestContext <;> cases s.firstReady <;> simp

theorem State.firstReady_some (h : s.firstReady = some r) : r ∈ s.queue ∧ r.notBefore = none :=
  ⟨List.mem_of_find?_eq_some h, by simpa using List.find?_some h⟩

theorem State.weight_dispatchOne (h : s.dispatchOne = some t) : weight t.queue < weight s.queue := by
  obtain ⟨c, r, -, hr, rfl⟩ := State.dispatchOne_some h
  obtain ⟨hmem, hn⟩ := State.firstReady_some hr
  exact State.weight_handOver hmem hn c

/-- The loop comes to rest when its bound exceeds the weight of the queue. -/
theorem State.dispatchLoop_rested (n : Nat) : ∀ s : State, weight s.queue < n → Rested (State.dispatchLoop n s) := by
  induction n with
  | zero => exact fun s h => absurd h (Nat.not_lt_zero _)
  | succ n ih =>
    intro s h
    rw [State.dispatchLoop]
    split
    next hone => exact State.dispatchOne_none.mp hone
    next t hone => exact ih t (by have := State.weight_dispatchOne hone; omega)

/-- Once the bound exceeds the weight, a larger one changes nothing. -/
theorem State.dispatchLoop_enough (n : Nat) : ∀ (m : Nat) (s : State), weight s.queue < n → n ≤ m →
    State.dispatchLoop m s = State.dispatchLoop n s := by
  induction n with
  | zero => exact fun m s h => absurd h (Nat.not_lt_zero _)
  | succ n ih =>
    intro m s h hm
    obtain ⟨m, rfl⟩ : ∃ k, m = k + 1 := ⟨m - 1, by omega⟩
    rw [State.dispatchLoop, State.dispatchLoop]
    split
    next => rfl
    next t hone => exact ih m t (by have := State.weight_dispatchOne hone; omega) (by omega)

theorem State.weight_lt_bound (s : State) : weight s.queue < 2 * s.queue.length + 2 := by
  have := weight_le s.queue; omega

/-- A dispatch is one hand-over and the dispatch after it. -/
theorem State.settle_dispatchOne (h : s.dispatchOne = some t) : s.settle = t.settle := by
  have hs := s.weight_lt_bound
  have ht := t.weight_lt_bound
  have hlt := State.weight_dispatchOne h
  have hone : s.settle = State.dispatchLoop (2 * s.queue.length + 1) t := by
    rw [State.settle, State.dispatchLoop, h]
  have henough (m : Nat) (hm : weight t.queue + 1 ≤ m) :
      State.dispatchLoop m t = State.dispatchLoop (weight t.queue + 1) t :=
    State.dispatchLoop_enough _ m t (Nat.lt_succ_self _) hm
  rw [hone, State.settle, henough (2 * s.queue.length + 1) (by omega), henough (2 * t.queue.length + 2) (by omega)]

/-- The entry of a request that is handed to a context (R7, R22, R92). -/
theorem Entry.dispatch_eq (x : Entry) (c : ContextNo) (r : Request) : x.dispatch c r.fresh = { x with
    context := some c
    current := if r.retry = 0 ∧ r.displaced = false then 0 else x.current
    state := (match x.state with | .unattached => .attaching | .served => .moving | st => st)
    settleTimer := if x.state = .served then none else x.settleTimer } := by
  have hf : r.fresh = true ↔ r.retry = 0 ∧ r.displaced = false := by simp [Request.fresh]
  unfold Entry.dispatch
  simp only [hf]
  cases x.state <;> simp

theorem Request.context_eq (r : Request) (x : Entry) : r.context x =
    { entry := r.entry, cause := r.cause, cls := r.cls,
      kind := (match x.state with | .served => .move | .lost => .summon | _ => .attach),
      source := if x.state = .served then x.serving else none, explicit := r.explicit, target := none,
      targetSlot := none, phase := .reserve, tried := 0, exclusion := r.exclusion, retry := r.retry,
      displaced := r.displaced, restartUsed := false, arrivalTimer := none, awaited := none } := by
  unfold Request.context
  cases x.state <;> rfl

/-- The state in which a context has taken a request, before it chooses a target. -/
abbrev State.taken (s : State) (c : ContextNo) (r : Request) (x : Entry) : State :=
  { s with
    queue := s.queue.filter (·.entry ≠ r.entry)
    contexts := s.contexts.set c (some (r.context x))
    roster := s.roster.set r.entry (some (x.dispatch c r.fresh)) }

theorem State.handOver_eq (he : s.entry r.entry = some x) (c : ContextNo) : s.handOver c r =
    if ((s.taken c r x).tryTarget c true).2 = 0 then ((s.taken c r x).tryTarget c true).1
    else ((s.taken c r x).tryTarget c true).1.dispose c ((s.taken c r x).tryTarget c true).2 := by
  have he' : (s.removeRequest r.entry).entry r.entry = some x := he
  unfold State.handOver
  simp only [he', State.mapEntry_eq he']
  simp only [State.removeRequest_eq]
  rfl

/-- Settles O51. -/
theorem dispatchRunsUntilNoRequestMayGo : Obligations.DispatchRunsUntilNoRequestMayGo := by
  refine ⟨fun s => rfl, fun s => State.dispatchLoop_rested _ s s.weight_lt_bound, fun s h => State.settle_rested h,
    fun s c r held later hc hlow hq hheld hr => ⟨State.settle_dispatchOne ?_, fun x he => ?_⟩⟩
  · have hlowest : s.lowestContext = some c := by
      rw [State.lowestContext, find_finRange_eq_some]
      exact ⟨by rw [hc]; rfl, fun i hi => by simpa using Option.ne_none_iff_isSome.mp (hlow i hi)⟩
    have hready : s.firstReady = some r := by
      rw [State.firstReady, List.find?_eq_some_iff_append]
      exact ⟨by rw [hr]; rfl, held, later, hq, fun h hh => by
        simpa [Option.isSome_iff_ne_none] using hheld h hh⟩
    rw [State.dispatchOne, hlowest, hready]
  · have h := State.handOver_eq he c
    simp only [State.taken, Entry.dispatch_eq, Request.context_eq] at h
    exact h

end Sys2Proof.Machine
end

section
/-! The Request Queue (R80 to R83, R85, R87). -/

namespace Sys2Proof.Machine

variable {s t u : State} {e : EntryNo} {x : Entry} {r : Request} {w : Raise} {q : List Request}

/-! ### What a raise is (R81 to R83) -/

theorem State.raiseRequest_busy (he : s.entry e = some x) (hc : x.context ≠ none) (w : Raise) : s.raiseRequest e w = s := by
  simp only [State.raiseRequest, he, if_pos (Option.isSome_iff_ne_none.mpr hc)]

theorem State.raiseRequest_merge (he : s.entry e = some x) (hc : x.context = none) (hr : s.requestOf e = some r) (w : Raise) :
    s.raiseRequest e w = s.mergeRequest r w := by
  simp only [State.raiseRequest, he, hc, hr, Option.isSome_none, Bool.false_eq_true, if_false]

theorem State.raiseRequest_enters (he : s.entry e = some x) (hc : x.context = none) (hr : s.requestOf e = none)
    (hn : s.queue.length < 16) (w : Raise) : s.raiseRequest e w = s.enqueue (w.request e x.cls s.nextOrder) := by
  simp only [State.raiseRequest, he, hc, hr, Option.isSome_none, Bool.false_eq_true, if_false]
  exact if_pos hn

theorem State.raiseRequest_full (he : s.entry e = some x) (hc : x.context = none) (hr : s.requestOf e = none)
    (hn : ¬ s.queue.length < 16) (w : Raise) :
    s.raiseRequest e w = s.raiseIntoFull (w.request e x.cls s.nextOrder) := by
  simp only [State.raiseRequest, he, hc, hr, Option.isSome_none, Bool.false_eq_true, if_false]
  exact if_neg hn

theorem State.requestOf_none : s.requestOf e = none ↔ ¬ HasRequest s e := by
  rw [State.requestOf, List.find?_eq_none]
  simp only [beq_iff_eq, HasRequest, not_exists, not_and]

theorem State.requestOf_some (h : s.requestOf e = some r) : r ∈ s.queue ∧ r.entry = e :=
  ⟨List.mem_of_find?_eq_some h, by simpa using List.find?_some h⟩

theorem State.raiseIntoFull_eq {last : Request} (h : s.queue.getLast? = some last) (r : Request) :
    s.raiseIntoFull r = if r.before last then (s.removeRequest last.entry).enqueue r else s := by
  rw [State.raiseIntoFull, h]

theorem State.mergeRequest_eq (r : Request) (w : Raise) : s.mergeRequest r w =
    { s with queue := placeRequest (r.merge w) (s.queue.filter (·.entry ≠ r.entry)) } := by
  rw [State.mergeRequest, dropRequest_eq]

/-! ### The order of the queue (R80) -/

theorem Request.merge_order (r : Request) (w : Raise) : (r.merge w).order = r.order := by
  unfold Request.merge; simp only; split <;> rfl

theorem Request.merge_entry (r : Request) (w : Raise) : (r.merge w).entry = r.entry := by
  unfold Request.merge; simp only; split <;> rfl

/-- A request that takes the next entry order enters a queue that has room. -/
theorem QueueInOrder.enqueue (h : QueueInOrder s) (hr : r.order = s.nextOrder) (hn : s.queue.length < 16) :
    QueueInOrder (s.enqueue r) where
  length := by rw [State.enqueue_queue, (placeRequest_perm r s.queue).length_eq]; exact hn
  key := placeRequest_sorted h.key fun q hq => by have := h.past q hq; omega
  orders := by
    rw [State.enqueue_queue, (placeRequest_perm r s.queue).pairwise_iff fun hne => hne.symm]
    exact List.pairwise_cons.mpr ⟨fun q hq => by have := h.past q hq; omega, h.orders⟩
  past := by
    intro q hq
    rw [State.enqueue_nextOrder]
    rcases List.mem_cons.mp ((placeRequest_perm r s.queue).mem_iff.mp hq) with rfl | hq
    · omega
    · have := h.past q hq; omega

/-- Requests may leave the queue. -/
theorem QueueInOrder.sublist (h : QueueInOrder s) (hq : t.queue.Sublist s.queue) (hn : t.nextOrder = s.nextOrder) :
    QueueInOrder t where
  length := hq.length_le.trans h.length
  key := h.key.sublist hq
  orders := h.orders.sublist hq
  past := fun r hr => hn ▸ h.past r (hq.subset hr)

theorem QueueInOrder.removeRequest (h : QueueInOrder s) (e : EntryNo) : QueueInOrder (s.removeRequest e) :=
  h.sublist List.filter_sublist rfl

/-- A request of the queue is placed again by its key, with its order kept. -/
theorem QueueInOrder.replace (h : QueueInOrder s) (hr : r ∈ s.queue) {r' : Request} (ho : r'.order = r.order) :
    QueueInOrder { s with queue := placeRequest r' (dropRequest r.entry s.queue) } := by
  have hother : ∀ q ∈ dropRequest r.entry s.queue, q.order ≠ r'.order := by
    intro q hq
    rw [dropRequest_eq, List.mem_filter] at hq
    have hinj := List.inj_on_of_nodup_map (List.pairwise_map.mpr h.orders : (s.queue.map Request.order).Nodup)
    intro heq
    obtain rfl := hinj hq.1 hr (heq.trans ho)
    simp at hq
  have hrest : QueueInOrder (s.removeRequest r.entry) := h.removeRequest r.entry
  have hp := placeRequest_perm r' (dropRequest r.entry s.queue)
  have hlen : (dropRequest r.entry s.queue).length < s.queue.length := by
    rw [dropRequest_eq]
    exact List.length_filter_lt_length_iff_exists.mpr ⟨r, hr, by simp⟩
  refine ⟨?_, placeRequest_sorted hrest.key hother, ?_, fun q hq => ?_⟩
  · have := h.length
    rw [hp.length_eq, List.length_cons]
    omega
  · rw [hp.pairwise_iff fun hne => hne.symm]
    exact List.pairwise_cons.mpr ⟨fun q hq => (hother q hq).symm, hrest.orders⟩
  · rcases List.mem_cons.mp (hp.mem_iff.mp hq) with rfl | hq
    · exact ho ▸ h.past r hr
    · exact hrest.past q hq

/-- Every raise keeps the queue in order (R80 to R83). -/
theorem QueueInOrder.raiseRequest (h : QueueInOrder s) (e : EntryNo) (w : Raise) : QueueInOrder (s.raiseRequest e w) := by
  cases he : s.entry e with
  | none => rw [State.raiseRequest, he]; exact h
  | some x =>
    by_cases hc : x.context = none
    · cases hr : s.requestOf e with
      | some r =>
        rw [State.raiseRequest_merge he hc hr]
        exact h.replace (State.requestOf_some hr).1 (r.merge_order w)
      | none =>
        by_cases hn : s.queue.length < 16
        · rw [State.raiseRequest_enters he hc hr hn]
          exact h.enqueue rfl hn
        · rw [State.raiseRequest_full he hc hr hn]
          cases hl : s.queue.getLast? with
          | none => rw [State.raiseIntoFull, hl]; exact h
          | some last =>
            rw [State.raiseIntoFull_eq hl]
            split
            · refine (h.removeRequest last.entry).enqueue rfl ?_
              have hlen := h.length
              rw [State.removeRequest_queue, dropRequest_eq]
              exact (List.length_filter_lt_length_iff_exists.mpr
                ⟨last, List.mem_of_getLast? hl, by simp⟩).trans_le hlen
            · exact h
    · rw [State.raiseRequest_busy he hc]; exact h

/-- Settles O54. -/
theorem raisesEnterTheQueueByTheirKey : Obligations.RaisesEnterTheQueueByTheirKey := by
  intro s h
  have enters (r : Request) (hr : r.order = s.nextOrder) : (s.enqueue r).queue.Pairwise KeyBefore :=
    placeRequest_sorted h.key fun q hq => by have := h.past q hq; omega
  refine ⟨fun r hr => ⟨placeRequest_perm _ _, enters r hr, rfl⟩, fun e x w he =>
    ⟨fun hc => State.raiseRequest_busy he hc w, fun hc => ⟨(h.raiseRequest e w).key, fun r hr => ?_, fun hr hn => ?_,
      fun last hr hn hl => ?_⟩⟩⟩
  · have hreq : s.requestOf e = some r := (State.requestOf_eq s e).trans hr
    obtain rfl := (State.requestOf_some hreq).2
    rw [State.raiseRequest_merge he hc hreq, State.mergeRequest_eq]
    exact ⟨placeRequest_perm _ _, rfl⟩
  · exact State.raiseRequest_enters he hc (State.requestOf_none.mpr hr) hn w
  · rw [State.raiseRequest_full he hc (State.requestOf_none.mpr hr) (by omega), State.raiseIntoFull_eq hl,
      State.removeRequest_eq]
    exact ⟨fun hk => if_neg fun hb => hk.asymm ((Request.before_iff _ _).mp hb),
      fun hk => if_pos ((Request.before_iff _ _).mpr hk)⟩

end Sys2Proof.Machine
end

section
/-! The victim at a target and the disposal of conditions (R105, R118, R119, R122, R125, R129). -/

namespace Sys2Proof.Machine

variable {s t u : State} {a : AntennaNo} {sl : SlotNo} {e v : EntryNo} {x z : Entry} {c : ContextNo} {y : Context}
  {cls : ClassNo} {k : Condition} {found : ConditionSet}

/-! ### The victim (R125) -/

/-- The choice between the victim found so far and the one in the next slot. -/
def laterVictim (f : SlotNo → Option (EntryNo × ClassNo)) (best : Option (EntryNo × ClassNo)) (sl : SlotNo) :
    Option (EntryNo × ClassNo) :=
  match f sl, best with
  | none, b => b
  | some v, none => some v
  | some v, some b => if b.2 ≤ v.2 then some v else some b

/-- The greatest class among the slots of a list, and the last slot that holds it. -/
def IsVictim (f : SlotNo → Option (EntryNo × ClassNo)) (l : List SlotNo) (v : EntryNo × ClassNo) : Prop :=
  ∃ i ∈ l, f i = some v ∧ ∀ j ∈ l, ∀ w, f j = some w → w.2 < v.2 ∨ w.2 = v.2 ∧ j ≤ i

theorem laterVictim_spec (f : SlotNo → Option (EntryNo × ClassNo)) (l : List SlotNo) (hl : l.Pairwise (· < ·)) :
    (l.foldl (laterVictim f) none = none → ∀ i ∈ l, f i = none) ∧
    ∀ v, l.foldl (laterVictim f) none = some v → IsVictim f l v := by
  induction l using List.reverseRecOn with
  | nil => exact ⟨fun _ _ h => (List.not_mem_nil h).elim, fun v h => by cases h⟩
  | append_singleton l i ih =>
    obtain ⟨hl, -, hlt⟩ := List.pairwise_append.mp hl
    obtain ⟨ihn, ihs⟩ := ih hl
    have hlt' : ∀ j ∈ l, j < i := fun j hj => hlt j hj i (List.mem_singleton_self i)
    rw [List.foldl_append, List.foldl_cons, List.foldl_nil]
    generalize hb : l.foldl (laterVictim f) none = b at ihn ihs
    unfold laterVictim
    cases hf : f i with
    | none =>
      refine ⟨fun hn j hj => ?_, fun v hv => ?_⟩
      · rcases List.mem_append.mp hj with hj | hj
        · exact ihn hn j hj
        · rw [List.mem_singleton.mp hj]; exact hf
      · obtain ⟨j, hj, hfj, hmax⟩ := ihs v hv
        refine ⟨j, List.mem_append_left _ hj, hfj, fun j' hj' w hw => ?_⟩
        rcases List.mem_append.mp hj' with hj' | hj'
        · exact hmax j' hj' w hw
        · rw [List.mem_singleton.mp hj', hf] at hw; cases hw
    | some w =>
      cases b with
      | none =>
        refine ⟨fun hn => (by cases hn), fun v hv => ?_⟩
        obtain rfl := Option.some.inj hv
        refine ⟨i, by simp, hf, fun j hj w' hw' => ?_⟩
        rcases List.mem_append.mp hj with hj | hj
        · rw [ihn rfl j hj] at hw'; cases hw'
        · obtain rfl := List.mem_singleton.mp hj
          rw [hf] at hw'; obtain rfl := Option.some.inj hw'
          exact .inr ⟨rfl, le_refl _⟩
      | some b =>
        simp only
        obtain ⟨j, hj, hfj, hmax⟩ := ihs b rfl
        refine ⟨fun hn => (by split at hn <;> cases hn), fun v hv => ?_⟩
        split at hv
        next hle =>
          obtain rfl := Option.some.inj hv
          refine ⟨i, by simp, hf, fun j' hj' w' hw' => ?_⟩
          rcases List.mem_append.mp hj' with hj' | hj'
          · have := hlt' j' hj'
            rcases hmax j' hj' w' hw' with h | ⟨h, -⟩
            · exact .inl (lt_of_lt_of_le h hle)
            · rcases lt_or_eq_of_le hle with h' | h'
              · exact .inl (h ▸ h')
              · exact .inr ⟨h.trans h', le_of_lt this⟩
          · obtain rfl := List.mem_singleton.mp hj'
            rw [hf] at hw'; obtain rfl := Option.some.inj hw'
            exact .inr ⟨rfl, le_refl _⟩
        next hle =>
          obtain rfl := Option.some.inj hv
          refine ⟨j, List.mem_append_left _ hj, hfj, fun j' hj' w' hw' => ?_⟩
          rcases List.mem_append.mp hj' with hj' | hj'
          · exact hmax j' hj' w' hw'
          · obtain rfl := List.mem_singleton.mp hj'
            rw [hf] at hw'; obtain rfl := Option.some.inj hw'
            exact .inl (lt_of_not_ge hle)

theorem IsVictim.unique {f : SlotNo → Option (EntryNo × ClassNo)} {l : List SlotNo} {v w : EntryNo × ClassNo}
    (hv : IsVictim f l v) (hw : IsVictim f l w) : v = w := by
  obtain ⟨i, hi, hfi, hmaxi⟩ := hv
  obtain ⟨j, hj, hfj, hmaxj⟩ := hw
  have hij : i = j := by
    rcases hmaxi j hj w hfj with h | ⟨h, h1⟩
    · rcases hmaxj i hi v hfi with h' | ⟨h', -⟩
      · exact absurd h' (lt_asymm h)
      · exact absurd h' (ne_of_gt h)
    · rcases hmaxj i hi v hfi with h' | ⟨-, h2⟩
      · exact absurd h (ne_of_gt h')
      · exact le_antisymm h2 h1
  subst hij
  exact Option.some.inj (hfi.symm.trans hfj)

theorem State.victim_iff : s.victim a cls = some v ↔ ∃ k, IsVictim (s.victimIn a cls) (List.finRange 8) (v, k) := by
  have hspec := laterVictim_spec (s.victimIn a cls) (List.finRange 8) (List.pairwise_lt_finRange 8)
  have hv : s.victim a cls = ((List.finRange 8).foldl (laterVictim (s.victimIn a cls)) none).map (·.1) := rfl
  rw [hv, Option.map_eq_some_iff]
  constructor
  · rintro ⟨⟨w, k⟩, hw, rfl⟩
    exact ⟨k, hspec.2 _ hw⟩
  · rintro ⟨k, hk⟩
    cases hf : (List.finRange 8).foldl (laterVictim (s.victimIn a cls)) none with
    | none =>
      obtain ⟨i, hi, hfi, -⟩ := hk
      rw [hspec.1 hf i hi] at hfi; cases hfi
    | some w => exact ⟨w, rfl, by rw [(hspec.2 w hf).unique hk]⟩

/-- A beltpack that may be displaced from a slot (R125). -/
def State.Stands (s : State) (a : AntennaNo) (cls : ClassNo) (sl : SlotNo) (v : EntryNo) (x : Entry) : Prop :=
  s.slot a sl = .occupied v ∧ s.entry v = some x ∧ x.state = .served ∧ x.context = none ∧ x.posted = none ∧
    x.pinned = false ∧ cls < x.cls

theorem State.victimIn_iff {k : ClassNo} :
    s.victimIn a cls sl = some (v, k) ↔ ∃ x, s.Stands a cls sl v x ∧ x.cls = k := by
  have hfor (x : Entry) : x.victimFor cls = true ↔ x.state = .served ∧ x.context = none ∧ x.posted = none ∧
      x.pinned = false ∧ cls < x.cls := by
    simp [Entry.victimFor, and_assoc]
  unfold State.victimIn State.Stands
  split
  next e hs =>
    split
    next x he =>
      split
      next hx => 
        constructor
        · intro h
          obtain ⟨rfl, rfl⟩ := Prod.mk.inj (Option.some.inj h)
          exact ⟨x, ⟨hs, he, (hfor x).mp hx⟩, rfl⟩
        · rintro ⟨x', ⟨hs', he', -⟩, rfl⟩
          obtain rfl : e = v := by rw [hs] at hs'; injection hs'
          rw [he] at he'; obtain rfl := Option.some.inj he'
          rfl
      next hx =>
        refine ⟨fun h => (by cases h), ?_⟩
        rintro ⟨x', ⟨hs', he', hx'⟩, rfl⟩
        obtain rfl : e = v := by rw [hs] at hs'; injection hs'
        rw [he] at he'; obtain rfl := Option.some.inj he'
        exact absurd ((hfor x).mpr hx') hx
    next he =>
      refine ⟨fun h => (by cases h), ?_⟩
      rintro ⟨x', ⟨hs', he', -⟩, -⟩
      obtain rfl : e = v := by rw [hs] at hs'; injection hs'
      rw [he] at he'; cases he'
  next hno =>
    refine ⟨fun h => (by cases h), ?_⟩
    rintro ⟨x', ⟨hs', -⟩, -⟩
    exact absurd hs' (hno v)

theorem State.victim_stands (s : State) (a : AntennaNo) (cls : ClassNo) (v : EntryNo) : s.victim a cls = some v ↔
    ∃ sl x, s.Stands a cls sl v x ∧
      ∀ sl' v' x', s.Stands a cls sl' v' x' → x'.cls < x.cls ∨ x'.cls = x.cls ∧ sl' ≤ sl := by
  rw [State.victim_iff]
  constructor
  · rintro ⟨k, sl, -, hf, hmax⟩
    obtain ⟨x, hx, rfl⟩ := State.victimIn_iff.mp hf
    exact ⟨sl, x, hx, fun sl' v' x' h' =>
      hmax sl' (List.mem_finRange _) (v', x'.cls) (State.victimIn_iff.mpr ⟨x', h', rfl⟩)⟩
  · rintro ⟨sl, x, hx, hmax⟩
    refine ⟨x.cls, sl, List.mem_finRange _, State.victimIn_iff.mpr ⟨x, hx, rfl⟩, fun j _ w hw => ?_⟩
    obtain ⟨x', hx', hk⟩ := State.victimIn_iff.mp hw
    exact hk ▸ hmax j w.1 x' hx'

/-! ### Conditions (R116 to R118, R129) -/

theorem Condition.bit_eq (k : Condition) : k.bit = BitVec.twoPow 8 (k.code.toNat - 1) := by
  cases k <;> decide

theorem Condition.within_eq (k : Condition) (t : ConditionSet) : k.within t = t.getLsbD (k.code.toNat - 1) := by
  rw [Condition.within, Condition.bit_eq, BitVec.and_twoPow]
  cases t.getLsbD (k.code.toNat - 1)
  · simp
  · cases k <;> decide

/-- The conditions in the order of their codes. -/
theorem Condition.all_code (k : Condition) : ∃ h : k.code.toNat - 1 < Condition.all.length,
    Condition.all[k.code.toNat - 1] = k := by
  cases k <;> exact ⟨by decide, rfl⟩

theorem Condition.code_all (i : Nat) (h : i < Condition.all.length) : Condition.all[i].code.toNat - 1 = i := by
  have h8 : i < 8 := h
  interval_cases i <;> rfl

theorem reportedCondition_eq (hk : found.getLsbD (k.code.toNat - 1) = true)
    (hlow : ∀ m < k.code.toNat - 1, found.getLsbD m = false) : reportedCondition found = some k := by
  obtain ⟨hlt, hall⟩ := k.all_code
  rw [reportedCondition, List.find?_eq_some_iff_getElem]
  refine ⟨by rw [Condition.within_eq, hk], k.code.toNat - 1, hlt, hall, fun j hj => ?_⟩
  rw [Condition.within_eq, Condition.code_all, hlow j hj]; rfl

theorem Condition.forced_iff (k : Condition) : k.forced = true ↔ k.code.toNat - 1 < 2 := by
  cases k <;> decide

theorem State.forcedNotices_iff : s.forcedNotices = true ↔ (s.policy.get 15).toNat = 1 := by
  simp [State.forcedNotices, State.item]

theorem State.enableSet_within (h : 2 ≤ k.code.toNat - 1) :
    k.within s.enableSet = (s.policy.get 14).getLsbD (k.code.toNat - 1 - 2) := by
  have h8 : k.code.toNat - 1 < 8 := by cases k <;> decide
  rw [Condition.within_eq, State.enableSet, BitVec.getLsbD_shiftLeft, decide_eq_true h8,
    decide_eq_false (Nat.not_lt.mpr h)]
  rfl

theorem State.posted_iff : (!k.forced && k.within s.enableSet) = true ↔
    2 ≤ k.code.toNat - 1 ∧ (s.policy.get 14).getLsbD (k.code.toNat - 1 - 2) = true := by
  rw [Bool.and_eq_true, Bool.not_eq_true', ← Bool.not_eq_true, Condition.forced_iff, Nat.not_lt]
  exact and_congr_right fun h => by rw [State.enableSet_within h]

/-- The entry after conditions have been disposed of (R22, R118). -/
abbrev Entry.recorded (z : Entry) (found : ConditionSet) : Entry :=
  { z with current := z.current ||| found, accrued := z.accrued ||| found }

theorem State.recordConditions_eq (he : s.entry e = some z) (found : ConditionSet) : s.recordConditions e found =
    { s with
      roster := s.roster.set e (some (z.recorded found))
      link := { s.link with domainAccrued := s.link.domainAccrued ||| found } } := by
  rw [State.recordConditions, State.mapEntry_eq he]; rfl

theorem State.reportForced_eq (he : s.entry y.entry = some z) (k : Condition) (d : Decision) : s.reportForced y k d =
    if k.code.toNat - 1 < 2 ∧ (s.policy.get 15).toNat = 1 then
      { s with link := s.link.queueNotice (.conditionReport y.entry z.id k z.current y.target d.disposition) }
    else s := by
  unfold State.reportForced
  simp only [he, Bool.and_eq_true, Condition.forced_iff, State.forcedNotices_iff]
  rfl

/-- Nobody becomes or stops being a victim by conditions recorded. -/
theorem State.recordConditions_victim (he : s.entry e = some z) (found : ConditionSet) (a : AntennaNo) (cls : ClassNo) :
    (s.recordConditions e found).victim a cls = s.victim a cls := by
  have hin : (s.recordConditions e found).victimIn a cls = s.victimIn a cls := by
    funext sl
    have hslot : (s.recordConditions e found).slot a sl = s.slot a sl := by rw [State.recordConditions_eq he]; rfl
    unfold State.victimIn
    rw [hslot]
    split
    next v _ =>
      by_cases hv : v = e
      · subst hv
        rw [he, State.recordConditions_eq he, State.entry_mk, get_set_self]; rfl
      · rw [State.recordConditions_eq he, State.entry_mk, get_set_ne _ _ (Ne.symm hv)]; rfl
    next => rfl
  unfold State.victim
  rw [hin]

/-! ### The decision (R119, R122) -/

theorem State.decideDisposal_post (h : (!k.forced && k.within s.enableSet) = true) (y : Context) :
    s.decideDisposal y k = .post := by
  unfold State.decideDisposal
  exact if_pos h

/-- The fallback table (R122). -/
theorem State.decideDisposal_fallback (h : ¬ (!k.forced && k.within s.enableSet) = true) (y : Context) :
    s.decideDisposal y k = if k = .srcLost then .convert else match s.fallbackMode with
      | .stay => .stop
      | .retry => s.decideReEnter y
      | .next => if k = .noTarget then .stop else .next
      | .displace => if k = .noTarget then .stop else if k = .noSlot then s.decideDisplace y else .next := by
  unfold State.decideDisposal
  rw [if_neg h]
  cases k <;> cases s.fallbackMode <;> rfl

theorem State.decideDisplace_next
    (h : y.displaced = true ∨ y.cause = .evict ∨ ∀ a, y.target = some a → s.victim a y.cls = none) :
    s.decideDisplace y = .next := by
  have hnone : (if y.displaced || y.cause == .evict then none else y.target.bind (s.victim · y.cls)) = none := by
    split
    · rfl
    next hno =>
      rw [Option.bind_eq_none_iff]
      rcases h with h | h | h
      · exact absurd (by rw [h]; rfl) hno
      · exact absurd (by rw [h]; exact Bool.or_true _) hno
      · exact h
  simp only [State.decideDisplace, hnone]

theorem State.decideDisplace_victim (hd : y.displaced = false) (hc : y.cause ≠ .evict) (ht : y.target = some a)
    (hv : s.victim a y.cls = some v) : s.decideDisplace y = if s.queue.length < 16 then .displace v else .stop := by
  have hsome : (if y.displaced || y.cause == .evict then none else y.target.bind (s.victim · y.cls)) = some v := by
    rw [if_neg (by simp [hd, hc]), ht]
    exact hv
  simp only [State.decideDisplace, hsome, State.queueHasRoom, decide_eq_true_eq]
  rfl

/-! ### The disposal (R105, R118) -/

/-- What a decision makes of a context (R119 to R128). -/
def State.acts (s : State) (c : ContextNo) (y : Context) (k : Condition) : Decision → State
  | .post => s.postFault c y k
  | .stop => (s.giveUpAttempt c).endTransaction c
  | .reEnter => s.reEnter c y
  | .displace v => s.displace c y v
  | .convert => s.convert c y
  | .next =>
    let r := (s.moveOn c y).tryTarget c false
    if r.2 = 0 then r.1 else r.1.dispose c r.2

/-- A disposal records its conditions, reports, decides and acts (R118). -/
theorem State.dispose_acts (h : s.ctx c = some y) (hk : reportedCondition found = some k) {d : Decision}
    (hd : (s.recordConditions y.entry found).decideDisposal y k = d) :
    s.dispose c found = ((s.recordConditions y.entry found).reportForced y k d).acts c y k d := by
  unfold State.dispose disposalBound
  rw [State.disposeChain]
  simp only [h, hk, hd]
  cases d with
  | next =>
    have hc : (((s.recordConditions y.entry found).reportForced y k .next).moveOn c y).ctx c = some y.movedOn :=
      State.moveOn_movedOn (by rw [State.reportForced_ctx, State.recordConditions_ctx, h])
    simp only [State.acts]
    split
    · rfl
    next hne => exact State.disposeChain_rest hc hne
  | _ => rfl

/-- Settles O55. -/
theorem disposalFollowsTheTable : Obligations.DisposalFollowsTheTable := by
  refine ⟨fun s a cls v => s.victim_stands a cls v, ?_⟩
  intro s c y z found k hy hz n hbit hlow u report stop next mode held room t
  have hk : reportedCondition found = some k := reportedCondition_eq hbit hlow
  have hu : s.recordConditions y.entry found = u := State.recordConditions_eq hz found
  have hreport (d : Decision) : u.reportForced y k d = report d.disposition :=
    State.reportForced_eq (s := u) (z := z.recorded found) (get_set_self _ _ _) k d
  have ht {d : Decision} (hd : u.decideDisposal y k = d) : t = (report d.disposition).acts c y k d := by
    rw [← hreport, ← hu]
    exact State.dispose_acts hy hk (by rw [hu]; exact hd)
  have hheld : (!k.forced && k.within u.enableSet) = true ↔ held := State.posted_iff
  have hmode : u.fallbackMode = match mode with
    | 0 => .stay
    | 1 => .next
    | 2 => .displace
    | _ => .retry := rfl
  have hvictim (a : AntennaNo) (cls : ClassNo) : u.victim a cls = s.victim a cls := by
    rw [← hu]; exact State.recordConditions_victim hz found a cls
  refine ⟨fun h => ?_, fun hsrc => ?_, fun hno hsrc => ?_⟩
  · rw [ht (State.decideDisposal_post (hheld.mpr h) y)]
    have : report Decision.post.disposition = u := if_neg fun hn => absurd h.1 (Nat.not_le.mpr hn.1)
    rw [this]; rfl
  · have hno : ¬ held := fun h => by subst hsrc; exact absurd h.1 (by decide)
    rw [ht ((State.decideDisposal_fallback (mt hheld.mp hno) y).trans (if_pos hsrc))]
    rfl
  · have hd := (State.decideDisposal_fallback (mt hheld.mp hno) y).trans (if_neg hsrc)
    rw [hmode] at hd
    refine ⟨fun hm => ?_, fun hm h hr => ?_, fun hm h => ?_, fun hm h => ?_, fun hm h => ?_, fun hm hns =>
      ⟨fun h => ?_, fun a v h1 h2 h3 h4 => ⟨fun hr => ?_, fun hr => ?_⟩⟩⟩
    · simp only [hm] at hd
      rw [ht hd]; rfl
    · simp only [hm] at hd
      rw [State.decideReEnter_eq, if_pos ⟨h, hr⟩] at hd
      rw [ht hd]; rfl
    · simp only [hm] at hd
      rw [State.decideReEnter_eq, if_neg (by exact h)] at hd
      rw [ht hd]; rfl
    · have hd' : u.decideDisposal y k = .stop := by rcases hm with hm | hm <;> simpa only [hm, h, if_true] using hd
      rw [ht hd']; rfl
    · have hd' : u.decideDisposal y k = .next := by
        rcases hm with hm | ⟨hm, hns⟩
        · simpa only [hm, h, if_false] using hd
        · simpa only [hm, hns, h, if_false] using hd
      rw [ht hd']; rfl
    all_goals
      have hnt : k ≠ .noTarget := by rw [hns]; decide
      simp only [hm, if_neg hnt, if_pos hns] at hd
    · rw [State.decideDisplace_next (by simpa only [hvictim] using h)] at hd
      rw [ht hd]; rfl
    · rw [State.decideDisplace_victim h1 h2 h3 ((hvictim a y.cls).trans h4), if_pos hr] at hd
      rw [ht hd]; rfl
    · rw [State.decideDisplace_victim h1 h2 h3 ((hvictim a y.cls).trans h4), if_neg hr] at hd
      rw [ht hd]; rfl

end Sys2Proof.Machine
end

section
/-! What each disposition does (R9, R52, R85, R95, R106, R107, R120 to R128). -/

namespace Sys2Proof.Machine

variable {s t u : State} {a : AntennaNo} {sl : SlotNo} {e v : EntryNo} {x z : Entry} {c : ContextNo} {y : Context}
  {k : Condition}

/-! ### The entry at the end of a transaction (R9) -/

theorem State.endTransaction_moving (hy : s.ctx c = some y) (hz : s.entry y.entry = some z) (h : z.state = .moving) :
    s.endTransaction c = { s with
      contexts := s.contexts.set c none
      roster := s.roster.set y.entry (some { z with context := none, state := .served }) } := by
  rw [State.endTransaction_eq hy hz]
  simp only [Entry.endTransaction, State.notifyEnd, h]

theorem State.endTransaction_attach (hy : s.ctx c = some y) (hz : s.entry y.entry = some z) (h : z.state = .attaching)
    (hk : y.kind = .attach) : s.endTransaction c = { s with
      contexts := s.contexts.set c none
      roster := s.roster.set y.entry (some z.offAir) } := by
  rw [State.endTransaction_eq hy hz]
  simp only [Entry.endTransaction, State.notifyEnd, h, hk]

theorem State.endTransaction_converted (hy : s.ctx c = some y) (hz : s.entry y.entry = some z) (h : z.state = .attaching)
    (hk : y.kind ≠ .attach) : s.endTransaction c = { s with
      contexts := s.contexts.set c none
      roster := s.roster.set y.entry (some
        { z with context := none, state := .lost, lostTimer := some ((s.policy.get 10).toNat * 1000) })
      link := s.link.queueNotice (.lost y.entry z.id none) } := by
  rw [State.endTransaction_eq hy hz]
  cases hkind : y.kind with
  | attach => exact absurd hkind hk
  | _ => simp only [Entry.endTransaction, State.notifyEnd, h]; rfl

theorem State.endTransaction_lost (hy : s.ctx c = some y) (hz : s.entry y.entry = some z) (h : z.state = .lost)
    (hw : z.windowExpired = false) : s.endTransaction c = { s with
      contexts := s.contexts.set c none
      roster := s.roster.set y.entry (some { z with context := none }) } := by
  rw [State.endTransaction_eq hy hz]
  simp only [Entry.endTransaction, State.notifyEnd, h, hw]
  rfl

theorem State.endTransaction_expired (hy : s.ctx c = some y) (hz : s.entry y.entry = some z) (h : z.state = .lost)
    (hw : z.windowExpired = true) : s.endTransaction c = { s with
      contexts := s.contexts.set c none
      roster := s.roster.set y.entry (some z.offAir)
      link := s.link.queueNotice (.unattached y.entry z.id .window) } := by
  rw [State.endTransaction_eq hy hz]
  simp only [Entry.endTransaction, State.notifyEnd, h, hw]
  rfl

/-! ### Giving up an attempt leaves these stores -/

theorem State.giveUpAttempt_entry (s : State) (c : ContextNo) (e : EntryNo) : (s.giveUpAttempt c).entry e = s.entry e := by
  rw [State.giveUpAttempt_rest]; rfl

theorem State.giveUpAttempt_ctx (hy : s.ctx c = some y) : (s.giveUpAttempt c).ctx c = some y.givenUp := by
  rw [State.giveUpAttempt_eq hy]; exact get_set_self _ _ _

theorem State.postFault_eq (hy : s.ctx c = some y) (hz : s.entry y.entry = some z) (k : Condition) :
    s.postFault c y k = State.endTransaction
      { s.giveUpAttempt c with
        roster := s.roster.set y.entry (some { z with posted := some ⟨k, z.current, y.target, y.cause⟩ })
        link := s.link.queueNotice (.handoffHeld y.entry z.id k z.current y.target y.cause) } c := by
  have hz' := (s.giveUpAttempt_entry c y.entry).trans hz
  unfold State.postFault
  simp only [hz', State.mapEntry_eq hz']
  rw [State.giveUpAttempt_eq hy]
  rfl

theorem State.moveOn_eq (hy : s.ctx c = some y) :
    s.moveOn c y = { s.giveUpAttempt c with contexts := s.contexts.set c (some y.movedOn) } := by
  rw [State.moveOn, State.mapCtx_eq (State.giveUpAttempt_ctx hy), State.giveUpAttempt_eq hy]
  simp only [set_set]

/-- A conversion to a sourceless Summon (R128). -/
theorem State.convert_eq (hy : s.ctx c = some y) (hz : s.entry y.entry = some z) :
    let t : State := { s with
      contexts := s.contexts.set c (some { y with kind := .summon, source := none })
      roster := s.roster.set y.entry (some
        { z with state := .attaching, serving := none, survey := { z.survey with servingScore := none } }) }
    s.convert c y = if y.phase = .cue then ((t.stopAwaiting c).mapCtx c fun y => { y with phase := .summon }).postSummon c
      else t := by
  unfold State.convert
  rw [State.mapCtx_eq hy, State.mapEntry_mk (h := hz)]

theorem State.convert_early (hy : s.ctx c = some y) (hz : s.entry y.entry = some z) (hp : y.phase ≠ .cue) :
    s.convert c y = { s with
      contexts := s.contexts.set c (some { y with kind := .summon, source := none })
      roster := s.roster.set y.entry (some
        { z with state := .attaching, serving := none, survey := { z.survey with servingScore := none } }) } :=
  (State.convert_eq hy hz).trans (if_neg hp)

/-- In the Cue phase the Cue is left and a Summon is posted (R128). -/
theorem State.convert_cue (hy : s.ctx c = some y) (hz : s.entry y.entry = some z) (hp : y.phase = .cue)
    (ht : y.target = some a) (hs : y.targetSlot = some sl) : s.convert c y = State.postOrder
      { s.stopAwaiting c with
        contexts := s.contexts.set c (some
          { y with kind := .summon, source := none, phase := .summon, awaited := some ⟨.summon, a⟩ })
        roster := s.roster.set y.entry (some
          { z with state := .attaching, serving := none, survey := { z.survey with servingScore := none } }) } a
      ⟨.summon, z.id, sl, .context c⟩ := by
  refine (State.convert_eq hy hz).trans ((if_pos hp).trans ?_)
  generalize hw : ({ s with
      contexts := s.contexts.set c (some { y with kind := .summon, source := none })
      roster := s.roster.set y.entry (some
        { z with state := .attaching, serving := none, survey := { z.survey with servingScore := none } }) } : State) = w
  have hwc : w.ctx c = some { y with kind := .summon, source := none } := by rw [← hw]; exact get_set_self _ _ _
  have hports : (w.stopAwaiting c).ports = (s.stopAwaiting c).ports :=
    State.stopAwaiting_ports_of hy hwc rfl (by rw [← hw])
  have hleft : (w.stopAwaiting c).mapCtx c (fun y => { y with phase := .summon }) = { s.stopAwaiting c with
      contexts := s.contexts.set c (some { y with kind := .summon, source := none, awaited := none, phase := .summon })
      roster := s.roster.set y.entry (some
        { z with state := .attaching, serving := none, survey := { z.survey with servingScore := none } }) } := by
    rw [State.stopAwaiting_eq hwc, State.mapCtx_mk (h := get_set_self _ _ _), set_set, hports, State.stopAwaiting_eq hy, ← hw]
    simp only [set_set]
  rw [hleft]
  refine Eq.trans (State.postSummon_eq (get_set_self _ _ _) ht hs (get_set_self _ _ _)) ?_
  rw [set_set]

theorem Port.leave_eq (p : Port) (c : ContextNo) :
    let left (o : Order) : Order := if o.poster = .context c then { o with poster := .nobody } else o
    let leftExchange (x : Exchange) : Exchange := match x.sent with
      | .probe => x
      | .order o => { x with sent := .order (left o) }
    p.leave c = { p with
      waiting := p.waiting.filter (·.poster ≠ .context c)
      fifo := p.fifo.map left
      inFlight := p.inFlight.map leftExchange } := by
  have hw : p.waiting.filter (fun o => o.poster != .context c) = p.waiting.filter (·.poster ≠ .context c) :=
    List.filter_congr fun o _ => Bool.eq_iff_iff.mpr (by simp)
  rw [Port.leave, hw]
  rfl

/-- The request that a context hands back (R85, R127). -/
theorem State.requeue_givenUp (s : State) (c : ContextNo) (y : Context) (n : Nat) (d : Bool) :
    (s.giveUpAttempt c).requeue y n d = (s.giveUpAttempt c).enqueue
      { entry := y.entry, cause := y.cause, cls := y.cls, explicit := y.explicit, exclusion := y.exclusion, retry := n,
        displaced := d, notBefore := some ((s.policy.get 12).toNat * 10), order := s.nextOrder } := by
  have hp : (s.giveUpAttempt c).policy = s.policy := by rw [State.giveUpAttempt_rest]
  have ho : (s.giveUpAttempt c).nextOrder = s.nextOrder := by rw [State.giveUpAttempt_rest]
  rw [State.requeue, ho, ← hp]
  rfl

/-- Settles O56. -/
theorem dispositionsActAsNamed : Obligations.DispositionsActAsNamed := by
  intro s c y z hy hz become rest ended offAir given
  refine ⟨State.stopAwaiting_none hy, fun w hw => ?_, fun a sl ht hs hr => State.giveUpAttempt_reserved hy ht hs hr,
    fun hno => State.giveUpAttempt_not hy hno, State.endTransaction_moving hy hz, State.endTransaction_attach hy hz,
    State.endTransaction_converted hy hz, State.endTransaction_lost hy hz, State.endTransaction_expired hy hz,
    State.postFault_eq hy hz, State.moveOn_eq hy, ?_, fun v => ?_, State.convert_early hy hz,
    fun a sl hp ht hs => State.convert_cue hy hz hp ht hs⟩
  · rw [State.stopAwaiting_some hy hw, Port.leave_eq] <;> rfl
  · rw [State.reEnter, State.requeue_givenUp]
  · rw [State.displace, State.requeue_givenUp]

end Sys2Proof.Machine
end

section
/-! The closing sweep, slot by slot (R134 to R138, R141). -/

namespace Sys2Proof.Machine

variable {s t u : State} {a : AntennaNo} {sl : SlotNo} {e v : EntryNo} {x z : Entry} {c : ContextNo} {y : Context}
  {late : Option ContextNo}

/-- The state of a sweep that has freed a slot, before what follows for its beltpack. -/
abbrev State.freed (s : State) (a : AntennaNo) (sl : SlotNo) : State :=
  { s with antennas := s.antennas.set a { s.ant a with slots := (s.ant a).slots.set sl .free } }

theorem State.sweepSlot_free (h : s.slot a sl = .free) (late : Option ContextNo) : s.sweepSlot a late sl = s := by
  rw [State.sweepSlot, h]

theorem State.sweepSlot_occupied (h : s.slot a sl = .occupied e) (late : Option ContextNo) :
    s.sweepSlot a late sl = (s.freed a sl).sweepOccupied a late e := by
  rw [State.sweepSlot, h]; rfl

theorem State.sweepSlot_reserved (h : s.slot a sl = .reserved e) (late : Option ContextNo) :
    s.sweepSlot a late sl = (s.freed a sl).sweepReserved late e := by
  rw [State.sweepSlot, h]; rfl

theorem State.sweepSlot_releasing (h : s.slot a sl = .releasing e) (late : Option ContextNo) :
    s.sweepSlot a late sl = (s.freed a sl).afterRelease a sl e := by
  rw [State.sweepSlot, h]; rfl

theorem State.raiseEvacuation_none (h : s.bestTarget e 0 = none) : s.raiseEvacuation e = s := by
  rw [State.raiseEvacuation, h]

theorem State.raiseEvacuation_some (h : s.bestTarget e 0 ≠ none) :
    s.raiseEvacuation e = s.raiseRequest e ⟨.evacuation, none, 0⟩ := by
  obtain ⟨k, hk⟩ := Option.ne_none_iff_exists'.mp h
  rw [State.raiseEvacuation, hk]

theorem State.sweepOccupied_alone (he : s.entry e = some x) (hc : x.context = none) :
    s.sweepOccupied a late e = (s.loseServing e a).raiseEvacuation e := by
  simp only [State.sweepOccupied, he, hc]

theorem State.sweepOccupied_busy (he : s.entry e = some x) (hc : x.context = some c) (hy : s.ctx c = some y) :
    s.sweepOccupied a late e =
      if y.phase = .release then s.loseServing e a else s.dispose c (Condition.srcLost.bit ||| lateSet late c) := by
  simp only [State.sweepOccupied, he, hc, hy]

/-- ORDERLATE joins a condition of the sweep at the context of the late order alone (R32). -/
theorem lateSet_joined (k : ConditionSet) (late : Option ContextNo) (c : ContextNo) :
    k ||| lateSet late c = if late = some c then k ||| 0x04 else k := by
  unfold lateSet
  split
  · rfl
  · exact BitVec.or_zero

/-- Settles O57. -/
theorem sweepTakesEachSlotByItsState : Obligations.SweepTakesEachSlotByItsState := by
  intro s a late
  refine ⟨rfl, fun sl => ?_⟩
  intro f joined
  refine ⟨fun h => State.sweepSlot_free h late, fun e x he => ?_⟩
  intro lost
  have hlost : (s.freed a sl).loseServing e a = lost := State.loseServing_eq (s := s.freed a sl) he
  refine ⟨fun hs => ?_, fun hs => ?_, fun hs => ?_⟩
  · rw [State.sweepSlot_occupied hs]
    refine ⟨fun hc hb => ?_, fun hc hb => ?_, fun c y hc hy => ⟨fun hp => ?_, fun hp => ?_⟩⟩
    · rw [State.sweepOccupied_alone (s := s.freed a sl) he hc, hlost, State.raiseEvacuation_none hb]
    · rw [State.sweepOccupied_alone (s := s.freed a sl) he hc, hlost, State.raiseEvacuation_some hb]
    · rw [State.sweepOccupied_busy (s := s.freed a sl) he hc hy, if_pos hp, hlost]
    · rw [State.sweepOccupied_busy (s := s.freed a sl) he hc hy, if_neg hp, lateSet_joined]; rfl
  · rw [State.sweepSlot_reserved hs]
    have hf : (s.freed a sl).entry e = some x := he
    unfold State.sweepReserved
    rw [hf, Option.bind_some]
    refine ⟨fun hc => ?_, fun c hc => ?_⟩
    · rw [hc]
    · simp only [hc, lateSet_joined]; rfl
  · rw [State.sweepSlot_releasing hs]
    refine ⟨fun hc => ?_, fun c y hc hy => ⟨fun hr => ?_, fun hr => ?_⟩⟩
    · rw [State.afterRelease, State.releasedBy_none (s := s.freed a sl) he fun c y hc' => by rw [hc] at hc'; cases hc']
    · rw [State.afterRelease, State.releasedBy_some (s := s.freed a sl) he hc hy hr]
    · have hnone : (s.freed a sl).releasedBy a sl e = none := by
        refine State.releasedBy_none (s := s.freed a sl) he fun c' y' hc' hy' => ?_
        obtain rfl := Option.some.inj (hc.symm.trans hc')
        obtain rfl := Option.some.inj (hy.symm.trans hy')
        exact hr
      rw [State.afterRelease, hnone]

end Sys2Proof.Machine
end

section
/-! Read Queue and Read Transactions (R90, R114, 12.5). -/

namespace Sys2Proof.Machine

variable {s : State} {c : ContextNo} {y : Context} {α : Type}

/-! ### Time left (log entry 3) -/

theorem stepsLeft_pos (i ms step : Nat) : 1 ≤ stepsLeft i ms step := Nat.le_add_right 1 _

theorem stepsLeft_le (i ms step : Nat) : stepsLeft i ms step ≤ max 1 ((ms + step - 1) / step) := by
  have := Nat.mod_lt (Config.freeRemaining i) (lt_max_of_lt_left Nat.one_pos : 0 < max 1 ((ms + step - 1) / step))
  rw [stepsLeft]
  omega

/-- The free values of the records of a list, one for each. -/
def leftsFrom (g : α → Nat → Nat) : Nat → List α → List Nat
  | _, [] => []
  | i, x :: xs => g x i :: leftsFrom g (i + 1) xs

theorem leftsFrom_length (g : α → Nat → Nat) (l : List α) : ∀ i, (leftsFrom g i l).length = l.length := by
  induction l with
  | nil => exact fun i => rfl
  | cons x xs ih => exact fun i => congrArg (· + 1) (ih (i + 1))

theorem recordsFrom_eq {f : α → Nat → List Byte} {g : α → Nat → Nat} {F : α → Nat → List Byte}
    (h : ∀ x i, f x i = F x (g x i)) (l : List α) : ∀ i,
    recordsFrom f i l = (l.zip (leftsFrom g i l)).flatMap fun p => F p.1 p.2 := by
  induction l with
  | nil => exact fun i => rfl
  | cons x xs ih => exact fun i => by rw [recordsFrom, h, ih]; rfl

theorem mem_zip_leftsFrom {g : α → Nat → Nat} {p : α × Nat} (l : List α) : ∀ i, p ∈ l.zip (leftsFrom g i l) →
    ∃ j, p.2 = g p.1 j := by
  induction l with
  | nil => exact fun i h => (List.not_mem_nil h).elim
  | cons x xs ih =>
    intro i h
    rcases List.mem_cons.mp h with rfl | h
    · exact ⟨i, rfl⟩
    · exact ih (i + 1) h

/-- The records of the contexts take the free values in the contexts' order. -/
theorem recordsFrom_contexts (f : ContextNo → Nat → List Byte) (i : Nat) :
    recordsFrom f i (List.finRange 8) = (List.finRange 8).flatMap fun c => f c (i + c) := rfl

/-! ### The records (12.5) -/

theorem flagBits2_eq (p q : Bool) : flagBits [p, q] = bitsByte [(0, p), (1, q)] := by
  cases p <;> cases q <;> rfl

/-- The steps left on a request's not-before timer. -/
def Request.left (r : Request) (i : Nat) : Nat := stepsLeft i (r.notBefore.getD 0) 10

theorem Request.bytes_eq (r : Request) (i : Nat) : r.bytes i = queueRecord r (r.left i) := by
  unfold Request.bytes queueRecord Request.left
  rw [flagBits2_eq, flagBits2_eq]
  cases r.explicit <;> cases r.notBefore <;> rfl

/-- The steps left on a context's arrival timer. -/
def State.arrivalLeft (s : State) (c : ContextNo) (i : Nat) : Nat :=
  stepsLeft i (((s.ctx c).bind (·.arrivalTimer)).getD 0) 4

theorem Phase.byte_code (p : Phase) :
    byte p.code = match p with | .reserve => 0 | .cue => 1 | .summon => 2 | .arrival => 3 | .release => 4 := by
  cases p <;> rfl

/-- The awaited order with its type, as the record of a context shows it. -/
def State.orderShown (s : State) (c : ContextNo) (x : Context) : Option (OrderType × Standing) :=
  x.awaited.bind fun w => (s.standing c x w).map fun st => (w.type, st)

theorem State.awaitedOrder_isSome (s : State) (c : ContextNo) (x : Context) :
    (s.awaitedOrder c x).isSome = (s.orderShown c x).isSome := by
  unfold State.awaitedOrder State.orderShown
  cases x.awaited with
  | none => rfl
  | some w => cases h : s.standing c x w <;> simp [h]

theorem State.awaitedOrder_bytes (s : State) (c : ContextNo) (x : Context) :
    optionBytes (fun w => awaitedBytes w.1 w.2) (s.awaitedOrder c x) = match s.orderShown c x with
      | none => []
      | some (type, st) =>
        [match type with | .reserve => 2 | .cue => 3 | .summon => 4 | .release => 5,
         match st with | .waiting => 0 | .pending => 1 | .inFlight => 2] := by
  unfold State.awaitedOrder State.orderShown
  cases x.awaited with
  | none => rfl
  | some w =>
    simp only [Option.bind_some]
    cases s.standing c x w with
    | none => rfl
    | some st => simp only [Option.map_some, optionBytes, awaitedBytes]; cases w.type <;> rfl

theorem State.contextRecord_eq (s : State) (c : ContextNo) (i : Nat) :
    s.contextRecord c i = contextAnswer s c (s.arrivalLeft c i) := by
  unfold State.contextRecord contextAnswer State.arrivalLeft
  cases s.ctx c with
  | none => rfl
  | some x =>
    simp only [State.contextBytes, flagBits6_eq, flagBits2_eq, Kind.byte_code, Phase.byte_code,
      State.awaitedOrder_isSome, State.awaitedOrder_bytes, Option.bind_some]
    rw [show (x.awaited.bind fun w => (s.standing c x w).map fun st => (w.type, st)) = s.orderShown c x from rfl]
    generalize s.orderShown c x = order
    cases x.source <;> cases x.target <;> cases x.targetSlot <;> cases x.arrivalTimer <;> rfl

/-- Settles O31. -/
theorem queueAndContextReadsAnswer : Obligations.QueueAndContextReadsAnswer := by
  intro s hx
  constructor
  · obtain ⟨t, ht, hd, hrest⟩ := hostCommand_doneKept (code := 0x30) (body := readQueueBody) hx rfl
    refine ⟨t, leftsFrom Request.left s.freeIndex s.queue, ht, leftsFrom_length _ _ _, ?_, fun p hp => ?_, ?_⟩
    · rw [← recordsFrom_eq Request.bytes_eq]
      exact hd
    · obtain ⟨j, hj⟩ := mem_zip_leftsFrom _ _ hp
      refine ⟨hj ▸ stepsLeft_pos _ _ _, fun ms hms => ?_⟩
      have := stepsLeft_le j ms 10
      rw [hj, Request.left, hms]
      exact this
    · rw [hrest]
  · obtain ⟨t, ht, hd, hrest⟩ := hostCommand_doneKept (code := 0x31) (body := readTransactionsBody) hx rfl
    refine ⟨t, fun c => s.arrivalLeft c (s.freeIndex + c), ht, ?_, fun c x ms hc hms => ?_, ?_⟩
    · have hrecords : recordsFrom s.contextRecord s.freeIndex (List.finRange 8) =
          (List.finRange 8).flatMap fun c => contextAnswer s c (s.arrivalLeft c (s.freeIndex + c)) := by
        rw [recordsFrom_contexts]
        simp only [State.contextRecord_eq]
      rw [← hrecords, ← State.busyContexts_eq]
      exact hd
    · simp only [State.arrivalLeft, hc, Option.bind_some, hms]
      exact ⟨stepsLeft_pos _ _ _, stepsLeft_le _ ms 4⟩
    · rw [hrest]

end Sys2Proof.Machine
end

section
/-! Every event of the trunk, the timers and the dispatch leaves alone what the host has set. -/

namespace Sys2Proof.Machine

variable {s t u : State} {a : AntennaNo} {sl : SlotNo} {e : EntryNo} {x : Entry} {c : ContextNo} {y : Context}

/-! ### Outcomes of orders -/

theorem State.postCue_settled (s : State) (c : ContextNo) : Settled s (s.postCue c) := by
  unfold State.postCue
  split
  · exact .refl s
  · split
    · exact (s.mapCtx_settled _ _).trans (State.postAwaited_settled _ _ _ _)
    · exact .refl s

theorem State.ackOutcome_settled (s : State) (c : ContextNo) : Settled s (s.ackOutcome c) := by
  unfold State.ackOutcome
  split
  · exact .refl s
  · simp only
    refine Settled.trans (State.mapCtx_settled s c fun y => { y with awaited := none }) ?_
    split
    · exact State.postCue_settled _ _
    · exact (State.mapCtx_settled _ _ _).trans (State.postSummon_settled _ _)
    · exact State.mapCtx_settled _ _ _
    · exact State.mapCtx_settled _ _ _
    · exact .refl _
    · exact .refl _

theorem State.freeSlot_worked (s : State) (a : AntennaNo) (sl : SlotNo) : Worked s (s.freeSlot a sl) := by
  unfold State.freeSlot
  split
  · exact .refl s
  · refine (s.setSlot_worked a sl .free).trans ⟨rfl, rfl, rfl, rfl, rfl, .refl, fun _ => rfl, fun b => ?_⟩
    by_cases hb : a = b
    · subst hb; rw [State.mapLanes, State.ant_mapAnt_self]; rfl
    · rw [State.mapLanes, State.ant_mapAnt_ne _ _ hb]

theorem State.endRelease_hostKept (s : State) (a : AntennaNo) (sl : SlotNo) : HostKept s (s.endRelease a sl) := by
  unfold State.endRelease
  split
  · exact ((s.freeSlot_worked a sl).trans (State.afterRelease_settled _ _ _ _).toWorked).hostKept.trans
      (State.drainTest_keptBeside _ _ _).toHostKept
  · exact .refl s
  · exact .refl s
  · exact .refl s

theorem State.giveOutcome_hostKept (s : State) (a : AntennaNo) (o : Order) (w : OrderOutcome) :
    HostKept s (s.giveOutcome a o w) := by
  unfold State.giveOutcome
  split
  · exact .refl s
  · cases w with
    | acked => exact (State.ackOutcome_settled _ _).toWorked.hostKept
    | refused => exact (State.dispose_settled _ _ _).toWorked.hostKept
    | timedOut => exact (State.dispose_settled _ _ _).toWorked.hostKept
  · refine HostKept.trans ?_ (State.endRelease_hostKept _ _ _)
    split
    · split
      · exact (State.recordReleaseTimeout_settled _ _).toWorked.hostKept
      · exact .refl s
    · exact .refl s

/-! ### Changes of an antenna record, replies and timeouts -/

theorem State.changeAndSweep_hostKept (s : State) (a : AntennaNo) (late : Option ContextNo) {f : Antenna → Antenna}
    (hc : (f (s.ant a)).changed = (s.ant a).changed) (hl : (f (s.ant a)).loopback = (s.ant a).loopback) :
    HostKept s (s.changeAndSweep a late f) := by
  have h : HostKept s (s.changeAntenna a f) := by
    rw [s.changeAntenna_eq a hc]; exact (s.recordChanged_keptBeside a hl).toHostKept
  unfold State.changeAndSweep
  simp only
  split
  · exact h.trans (State.closingSweep_keptBeside _ _ _).toHostKept
  · exact h

theorem State.settledExchange_hostKept (s : State) (a : AntennaNo) : HostKept s (s.beginExchange a).settle :=
  ((s.beginExchange_settled a).trans (State.settle_settled _)).toWorked.hostKept

theorem State.endExchange_hostKept (s : State) (a : AntennaNo) : HostKept s (s.endExchange a) :=
  (s.endExchange_settled a).toWorked.hostKept

theorem State.latchStray_hostKept (s : State) : HostKept s s.latchStray := s.latchStray_settled.toWorked.hostKept

theorem State.takeOrderReply_hostKept (s : State) (a : AntennaNo) (k : Byte) (id : BeltpackId) (slot : Byte) (w : OrderOutcome) :
    HostKept s (s.takeOrderReply a k id slot w) := by
  unfold State.takeOrderReply
  split
  · exact s.latchStray_hostKept
  · split
    · have hm := State.mapAnt_keptBeside (s.endExchange a) a (f := fun r => { r with orderMisses := 0 }) rfl
      exact ((s.endExchange_hostKept a).trans hm.toHostKept).trans
        ((State.giveOutcome_hostKept _ _ _ _).trans (State.settledExchange_hostKept _ _))
    · exact s.latchStray_hostKept

theorem State.takeStatus_hostKept (s : State) (a : AntennaNo) (mode fault : Byte) : HostKept s (s.takeStatus a mode fault) := by
  unfold State.takeStatus
  split
  · exact ((s.endExchange_hostKept a).trans (State.changeAndSweep_hostKept _ _ _ rfl rfl)).trans
      (State.settledExchange_hostKept _ _)
  · exact s.latchStray_hostKept

theorem State.takeReply_hostKept (s : State) (a : AntennaNo) (r : PortReply) : HostKept s (s.takeReply a r) := by
  cases r with
  | status mode fault => exact s.takeStatus_hostKept a mode fault
  | ack k id slot => exact s.takeOrderReply_hostKept a k id slot .acked
  | refuse k id slot => exact s.takeOrderReply_hostKept a k id slot .refused

theorem State.missProbe_hostKept (s : State) (a : AntennaNo) : HostKept s (s.missProbe a) :=
  HostKept.trans (State.changeAndSweep_hostKept _ _ _ rfl rfl) (State.settledExchange_hostKept _ _)

theorem State.timeOutOrder_hostKept (s : State) (a : AntennaNo) (o : Order) : HostKept s (s.timeOutOrder a o) := by
  have hsweep (u : State) (late : Option ContextNo) : HostKept u (u.changeAndSweep a late Antenna.countTimeout) :=
    State.changeAndSweep_hostKept _ _ _ rfl rfl
  unfold State.timeOutOrder
  refine HostKept.trans ?_ (State.settledExchange_hostKept _ _)
  cases o.poster with
  | slot sl => exact (State.giveOutcome_hostKept _ _ _ _).trans (hsweep _ _)
  | nobody => exact hsweep _ _
  | context c =>
    simp only
    split
    · exact hsweep _ _
    · exact (hsweep _ _).trans (State.giveOutcome_hostKept _ _ _ _)

/-! ### Frames and bytes from a line -/

theorem State.fromLine_hostKept (s : State) (a : AntennaNo) {f : State → State} (hf : ∀ u, HostKept u (f u)) :
    HostKept s (s.fromLine a f) := by
  unfold State.fromLine
  split
  · exact (s.mapPort_settled a _).toWorked.hostKept.trans (hf _)
  · exact .refl s

theorem State.takeBadFrame_hostKept (s : State) (a : AntennaNo) : HostKept s (s.takeBadFrame a) :=
  s.fromLine_hostKept a fun u => (State.mapLink_settled u (.latch .refl _ _)).toWorked.hostKept

theorem State.lineReply_hostKept (s : State) (a : AntennaNo) (r : PortReply) : HostKept s (s.lineReply a r) :=
  s.fromLine_hostKept a fun u => u.takeReply_hostKept a r

theorem State.takeReport_hostKept (s : State) (a : AntennaNo) (r : Report) : HostKept s (s.takeReport a r) := by
  by_cases h : (s.ant a).link = .absent
  · rw [State.takeReport_absent h]; exact .refl s
  · rw [State.takeReport_delivered h]
    exact (r.taken_hostKept a s).trans (State.settle_settled _).toWorked.hostKept

theorem State.lineReport_hostKept (s : State) (a : AntennaNo) (r : Report) : HostKept s (s.lineReport a r) :=
  s.fromLine_hostKept a fun u => u.takeReport_hostKept a r

theorem State.takeTrunkByte_hostKept (s : State) (a : AntennaNo) (b : Byte) : HostKept s (s.takeTrunkByte a b) := by
  have hport (f : Port → Port) : HostKept s (s.mapPort a f) := (s.mapPort_settled a f).toWorked.hostKept
  unfold State.takeTrunkByte
  split
  · exact .refl s
  · split
    · split
      · exact hport _
      · exact .refl s
    · unfold State.takeTrunkFrameByte
      simp only
      split
      · split
        · exact s.takeBadFrame_hostKept a
        · split
          · unfold State.endReceivedFrame
            split
            · exact s.takeBadFrame_hostKept a
            · split
              · exact s.lineReply_hostKept a _
              · exact s.lineReport_hostKept a _
              · exact s.takeBadFrame_hostKept a
          · exact hport _
      · exact hport _

/-! ### Timers -/

theorem State.expireArrivalTimer_hostKept (s : State) (c : ContextNo) : HostKept s (s.expireArrivalTimer c) := by
  unfold State.expireArrivalTimer
  split
  · exact .refl s
  · split
    · exact ((State.dispose_settled _ _ _).trans (State.settle_settled _)).toWorked.hostKept
    · exact .refl s

theorem State.expireLostWindow_hostKept (s : State) (e : EntryNo) : HostKept s (s.expireLostWindow e) := by
  unfold State.expireLostWindow
  split
  · exact .refl s
  · split
    · exact .refl s
    · split
      · exact Worked.hostKept (Settled.toWorked (State.mapEntry_settled _ _ fun _ => rfl))
      · exact ((s.removeRequest_settled e).trans (State.detachWith_settled _ _ _)).toWorked.hostKept

/-! ### The events -/

/-- What an event does after the transmitter's choice leaves alone what the host has set. -/
theorem exec_event_hostKept {i : Instr} (hi : isEvent i = true) (h : exec i s = .next t) : HostKept s.wake t := by
  have of {u : State} (he : exec i s = .next u) (hu : HostKept s.wake u) : HostKept s.wake t := by
    rw [he] at h; injection h with h; exact h ▸ hu
  cases i with
  | badTrunkFrame a => exact of rfl (State.takeBadFrame_hostKept _ a)
  | trunkGapExpiry a =>
    refine of rfl ?_
    simp only
    split
    · exact .refl _
    · exact State.takeBadFrame_hostKept _ a
  | status a m f => exact of rfl (State.lineReply_hostKept _ a _)
  | ack a k id sl => exact of rfl (State.lineReply_hostKept _ a _)
  | refuse a k id sl r => exact of rfl (State.lineReply_hostKept _ a _)
  | sighting a f => exact of rfl (State.lineReport_hostKept _ a _)
  | seek a id q => exact of rfl (State.lineReport_hostKept _ a _)
  | arrival a id sl => exact of rfl (State.lineReport_hostKept _ a _)
  | signOff a id => exact of rfl (State.lineReport_hostKept _ a _)
  | probeTimerExpiry a =>
    exact of rfl ((State.mapPort_settled _ _ _).trans (State.beginExchange_settled _ _)).toWorked.hostKept
  | probeMiss a =>
    refine of rfl ?_
    simp only
    split
    · exact (State.endExchange_hostKept _ a).trans (State.missProbe_hostKept _ a)
    · exact .refl _
  | orderTimeout a =>
    refine of rfl ?_
    simp only
    split
    · split
      · exact (State.endExchange_hostKept _ a).trans (State.timeOutOrder_hostKept _ a _)
      · exact .refl _
    · exact .refl _
  | loopbackReply a =>
    refine of rfl ?_
    simp only
    split
    · exact State.takeReply_hostKept _ a _
    · exact .refl _
  | beginExchange a => exact of rfl (State.beginExchange_settled _ _).toWorked.hostKept
  | waitingPosterPlaced a =>
    exact of rfl ((State.mapPort_settled _ _ _).trans (State.beginExchange_settled _ _)).toWorked.hostKept
  | arrivalTimerExpiry c => exact of rfl (State.expireArrivalTimer_hostKept _ c)
  | lostWindowExpiry e => exact of rfl (State.expireLostWindow_hostKept _ e)
  | settleTimerExpiry e => exact of rfl (Worked.hostKept (Settled.toWorked (State.mapEntry_settled _ _ fun _ => rfl)))
  | candidateLifetimeExpiry e a => exact of rfl (State.mapSurvey_settled _ e _).toWorked.hostKept
  | notBeforeExpiry e => exact of rfl (settled_kept.trans (State.settle_settled _)).toWorked.hostKept
  | dispatch => exact of rfl (State.settle_settled _).toWorked.hostKept
  | trunkRxByte a b => exact of rfl (State.takeTrunkByte_hostKept _ a b)
  | _ => cases hi

/-- Settles O58. -/
theorem eventsKeepWhatTheHostHasSet : Obligations.EventsKeepWhatTheHostHasSet := by
  intro i s t hi h
  have hk := exec_event_hostKept hi h
  obtain ⟨hrate, hmode, hselection, hreceiver⟩ := hk.link.settings
  refine ⟨hk.policy, hk.running, hk.pending, hk.freeIndex, ?_, ?_, ?_, ?_, fun a => hk.loopback a, fun e he => ?_,
    fun e x he => ?_⟩
  · rw [hrate, State.wake_link, HostLink.choose_rate]
  · rw [hmode, State.wake_link, HostLink.choose_mode]
  · rw [hselection, State.wake_link, HostLink.choose_selection]
  · rw [hreceiver, State.wake_link, HostLink.choose_receiver]
  · have := hk.entries e
    rw [State.entry_wake, he, Option.map_none, Option.map_eq_none_iff] at this
    exact this
  · have := hk.entries e
    rw [State.entry_wake, he, Option.map_some, Option.map_eq_some_iff] at this
    obtain ⟨y, hy, hgiven⟩ := this
    simp only [Entry.given, Prod.mk.injEq] at hgiven
    exact ⟨y, hy, hgiven⟩

end Sys2Proof.Machine
end

section
/-! The state after reset is in order. -/

namespace Sys2Proof.Machine

theorem reset_values : ResetValues State.reset := resetValues_of_reset [] 0

theorem reset_slot (a : AntennaNo) (sl : SlotNo) : State.reset.slot a sl = .free := reset_values.slots a sl

theorem reset_lanes (a : AntennaNo) : (State.reset.ant a).lanes = Vector.replicate 4 none :=
  congrArg Antenna.lanes (reset_antennas_get a)

theorem reset_inOrder : InOrder State.reset where
  link := by
    rw [reset_values.link]
    exact ⟨by decide, by decide, by decide, by decide, fun x h => by cases h⟩
  policy i lo hi h := by
    have hall : ∀ i : Fin 16, policyRanges[i.val]?.all (fun r =>
        r.1 ≤ (State.reset.policy.get i).toNat && (State.reset.policy.get i).toNat ≤ r.2) := by decide
    have hi := hall i
    rw [h] at hi
    simpa using hi
  entries e x h := by rw [reset_values.roster] at h; cases h
  ids e e' x y h := by rw [reset_values.roster] at h; cases h
  strangers := by rw [reset_values.strangers]; exact ⟨Nat.zero_le _, List.nodup_nil⟩
  queue := by
    have hq := reset_values.queue
    exact ⟨by rw [hq]; exact Nat.zero_le _, hq ▸ .nil, hq ▸ .nil, fun r hr => by rw [hq] at hr; cases hr⟩
  antennas a := by
    obtain ⟨-, -, -, -, -, hp, ho⟩ := reset_values.antennas a
    rw [hp, ho, reset_lanes]
    exact ⟨by decide, by decide, LanesApart.empty⟩
  ports a := by
    rw [reset_values.ports a]
    exact ⟨Nat.zero_le _, fun h => absurd rfl h⟩
  stopped _ a := by
    rw [reset_values.ports a]
    exact ⟨(reset_values.antennas a).1, rfl, rfl, rfl⟩

theorem reset_transactionsInOrder : TransactionsInOrder State.reset where
  slots := by
    have hfree {a : AntennaNo} {sl : SlotNo} {e : EntryNo} : ¬ Holds State.reset a sl e := by
      rw [Holds, reset_slot]; simp
    refine ⟨fun a sl e h => absurd h hfree, fun a sl sl' e h => absurd h hfree, fun a sl e x h => ?_, fun a sl e h => ?_,
      fun a g => ?_⟩
    · rw [reset_values.roster] at h; cases h
    · rw [reset_slot] at h; cases h
    · have hnone : State.reset.slotLists a g = fun _ => false := by
        funext sl; rw [State.slotLists, reset_slot]; rfl
      rw [reset_lanes, laneUsers_empty, countOf, hnone]; rfl
  transactions c y h := by rw [reset_values.contexts] at h; cases h
  entries e x h := by rw [reset_values.roster] at h; cases h
  requests r h := by rw [reset_values.queue] at h; cases h
  one := reset_values.queue ▸ .nil
  orders a c := by
    rw [reset_values.ports a, reset_values.contexts c]; rfl

/-- Settles O60. -/
theorem resetStateIsInOrder : Obligations.ResetStateIsInOrder := ⟨reset_inOrder, reset_transactionsInOrder⟩

end Sys2Proof.Machine
end

section
/-! Every step keeps the stores in order, part one: the stores but the Host Link, and the operations that change one place of a store. -/

namespace Sys2Proof.Machine

variable {s t u : State} {a b : AntennaNo} {sl : SlotNo} {e : EntryNo} {x x' : Entry} {c : ContextNo} {y : Context}

/-! ### The stores but the Host Link -/

/-- The stores of `InOrder` but the Host Link, which a command at work leaves without a reply. -/
structure StoresInOrder (s : State) : Prop where
  policy : ∀ i : Fin 16, ∀ lo hi, policyRanges[i.val]? = some (lo, hi) →
    lo ≤ (s.policy.get i).toNat ∧ (s.policy.get i).toNat ≤ hi
  entries : ∀ e x, s.entry e = some x → EntryInOrder x
  ids : ∀ e e' x y, s.entry e = some x → s.entry e' = some y → x.id = y.id → e = e'
  strangers : s.strangers.length ≤ 8 ∧ s.strangers.Nodup
  queue : QueueInOrder s
  antennas : ∀ a, (s.ant a).probeMisses ≤ 3 ∧ (s.ant a).orderMisses ≤ 2 ∧ LanesApart (s.ant a).lanes
  ports : ∀ a, PortInOrder (s.port a)
  stopped : s.running = false → ∀ a, (s.ant a).link = .absent ∧ (s.port a).inFlight = none ∧
    (s.port a).probeDue = false ∧ (s.port a).probeTimer = none

theorem inOrder_iff : InOrder s ↔ LinkInOrder s.link ∧ StoresInOrder s :=
  ⟨fun h => ⟨h.link, h.policy, h.entries, h.ids, h.strangers, h.queue, h.antennas, h.ports, h.stopped⟩,
    fun ⟨hl, h⟩ => ⟨hl, h.policy, h.entries, h.ids, h.strangers, h.queue, h.antennas, h.ports, h.stopped⟩⟩

theorem QueueInOrder.of_eq (h : QueueInOrder s) (hq : t.queue = s.queue) (hn : t.nextOrder = s.nextOrder) : QueueInOrder t :=
  h.sublist (hq ▸ .refl _) hn

/-- States that differ in link, contexts, pending commands and free values alone. -/
theorem StoresInOrder.of_kept (h : StoresInOrder s) (hp : t.policy = s.policy := by rfl) (hr : t.roster = s.roster := by rfl)
    (hst : t.strangers = s.strangers := by rfl) (hq : t.queue = s.queue := by rfl) (hn : t.nextOrder = s.nextOrder := by rfl)
    (hrun : t.running = s.running := by rfl) (ha : t.antennas = s.antennas := by rfl) (hpo : t.ports = s.ports := by rfl) :
    StoresInOrder t where
  policy := hp ▸ h.policy
  entries := by simpa only [State.entry, hr] using h.entries
  ids := by simpa only [State.entry, hr] using h.ids
  strangers := hst ▸ h.strangers
  queue := h.queue.of_eq hq hn
  antennas := by simpa only [State.ant, ha] using h.antennas
  ports := by simpa only [State.port, hpo] using h.ports
  stopped := by simpa only [State.ant, State.port, ha, hpo, hrun] using h.stopped

/-! ### One place of a store -/

/-- The queue changed. -/
theorem StoresInOrder.setQueue (h : StoresInOrder s) (hq : QueueInOrder t)
    (hrest : t = { s with queue := t.queue, nextOrder := t.nextOrder }) : StoresInOrder t := by
  have hk : StoresInOrder { s with queue := t.queue, nextOrder := t.nextOrder } :=
    ⟨h.policy, h.entries, h.ids, h.strangers, hq.of_eq rfl rfl, h.antennas, h.ports, h.stopped⟩
  exact hrest ▸ hk

/-- An entry changed, with its ID kept. -/
theorem StoresInOrder.mapEntry (h : StoresInOrder s) (e : EntryNo) {f : Entry → Entry}
    (hf : ∀ x, s.entry e = some x → EntryInOrder x → EntryInOrder (f x)) (hid : ∀ x, (f x).id = x.id) :
    StoresInOrder (s.mapEntry e f) := by
  have hentry (e' : EntryNo) (x' : Entry) (hx' : (s.mapEntry e f).entry e' = some x') :
      ∃ x, s.entry e' = some x ∧ x'.id = x.id ∧ EntryInOrder x' := by
    by_cases he : e = e'
    · subst he
      rw [State.entry_mapEntry_self, Option.map_eq_some_iff] at hx'
      obtain ⟨x, hx, rfl⟩ := hx'
      exact ⟨x, hx, hid x, hf x hx (h.entries e x hx)⟩
    · rw [State.entry_mapEntry_ne _ _ he] at hx'
      exact ⟨x', hx', rfl, h.entries e' x' hx'⟩
  refine ⟨by simpa using h.policy, fun e' x' hx' => ?_, fun e₁ e₂ x₁ x₂ h₁ h₂ hx => ?_, by simpa using h.strangers,
    h.queue.of_eq (by simp) (by simp), by simpa using h.antennas, by simpa using h.ports, by simpa using h.stopped⟩
  · obtain ⟨-, -, -, hx⟩ := hentry e' x' hx'; exact hx
  · obtain ⟨y₁, hy₁, hid₁, -⟩ := hentry e₁ x₁ h₁
    obtain ⟨y₂, hy₂, hid₂, -⟩ := hentry e₂ x₂ h₂
    exact h.ids e₁ e₂ y₁ y₂ hy₁ hy₂ (hid₁.symm.trans (hx.trans hid₂))

/-- What an antenna record must keep to. -/
def AntennaInOrder (r : Antenna) : Prop := r.probeMisses ≤ 3 ∧ r.orderMisses ≤ 2 ∧ LanesApart r.lanes

/-- An antenna record changed. -/
theorem StoresInOrder.mapAnt (h : StoresInOrder s) (a : AntennaNo) {f : Antenna → Antenna}
    (hf : AntennaInOrder (s.ant a) → AntennaInOrder (f (s.ant a)))
    (hl : s.running = false → (f (s.ant a)).link = (s.ant a).link) : StoresInOrder (s.mapAnt a f) := by
  refine ⟨h.policy, by simpa using h.entries, by simpa using h.ids, h.strangers, h.queue.of_eq rfl rfl, fun b => ?_, h.ports,
    fun hr b => ?_⟩
  · by_cases hb : a = b
    · subst hb; rw [State.ant_mapAnt_self]; exact hf (h.antennas a)
    · rw [State.ant_mapAnt_ne _ _ hb]; exact h.antennas b
  · obtain ⟨hlink, hrest⟩ := h.stopped hr b
    refine ⟨?_, hrest⟩
    by_cases hb : a = b
    · subst hb; rw [State.ant_mapAnt_self]; exact (hl hr).trans hlink
    · rw [State.ant_mapAnt_ne _ _ hb]; exact hlink

/-- A port that does nothing while the trunk is stopped. -/
def Port.Still (p : Port) : Prop := p.inFlight = none ∧ p.probeDue = false ∧ p.probeTimer = none

/-- A port changed. -/
theorem StoresInOrder.mapPort (h : StoresInOrder s) (a : AntennaNo) {f : Port → Port}
    (hf : PortInOrder (s.port a) → PortInOrder (f (s.port a)))
    (hl : s.running = false → (s.port a).Still → (f (s.port a)).Still) : StoresInOrder (s.mapPort a f) := by
  refine ⟨h.policy, by simpa using h.entries, by simpa using h.ids, h.strangers, h.queue.of_eq rfl rfl, h.antennas,
    fun b => ?_, fun hr b => ?_⟩
  · by_cases hb : a = b
    · subst hb; rw [State.port_mapPort_self]; exact hf (h.ports a)
    · rw [State.port_mapPort_ne _ _ hb]; exact h.ports b
  · obtain ⟨hlink, hrest⟩ := h.stopped hr b
    refine ⟨hlink, ?_⟩
    by_cases hb : a = b
    · subst hb; rw [State.port_mapPort_self]; exact hl hr hrest
    · rw [State.port_mapPort_ne _ _ hb]; exact hrest

theorem StoresInOrder.mapLink (h : StoresInOrder s) (f : HostLink → HostLink) : StoresInOrder (s.mapLink f) := h.of_kept

theorem StoresInOrder.queueNotice (h : StoresInOrder s) (n : Notice) : StoresInOrder (s.queueNotice n) := h.of_kept

theorem StoresInOrder.putCtx (h : StoresInOrder s) (c : ContextNo) (y : Option Context) : StoresInOrder (s.putCtx c y) :=
  h.of_kept

theorem StoresInOrder.mapCtx (h : StoresInOrder s) (c : ContextNo) (f : Context → Context) : StoresInOrder (s.mapCtx c f) := by
  unfold State.mapCtx; split
  · exact h
  · exact h.putCtx _ _

/-! ### Ports (R154, R155) -/

variable {p : Port}

theorem Config.fifoPlaces_eq : Config.fifoPlaces = 6 := rfl

theorem PortInOrder.post (h : PortInOrder p) (o : Order) : PortInOrder (p.post o) := by
  have hf := h.fifo
  unfold Port.post
  rw [Config.fifoPlaces_eq]
  by_cases hroom : p.fifo.length < 6 ∧ p.waiting = []
  · rw [if_pos (by simpa using hroom)]
    refine ⟨by simp only [List.length_append, List.length_singleton]; omega, fun hw => absurd hroom.2 hw⟩
  · rw [if_neg (by simpa using hroom)]
    refine ⟨hf, fun _ => ?_⟩
    by_cases hw : p.waiting = []
    · have : ¬ p.fifo.length < 6 := fun hlt => hroom ⟨hlt, hw⟩
      simp only
      omega
    · exact h.waiting hw

/-- A waiting poster is placed in a port that has at most one place free while a poster waits. -/
theorem Port.placeWaiting_inOrder (hf : p.fifo.length ≤ 6) (hw : p.waiting ≠ [] → 5 ≤ p.fifo.length) :
    PortInOrder p.placeWaiting := by
  unfold Port.placeWaiting
  cases hwait : p.waiting with
  | nil => exact ⟨hf, fun h => absurd hwait h⟩
  | cons o ws =>
    have h5 : 5 ≤ p.fifo.length := hw (by rw [hwait]; exact List.cons_ne_nil _ _)
    simp only
    by_cases hroom : p.fifo.length < Config.fifoPlaces
    · rw [if_pos hroom]
      rw [Config.fifoPlaces_eq] at hroom
      exact ⟨by simp only [List.length_append, List.length_singleton]; omega,
        fun _ => by simp only [List.length_append, List.length_singleton]; omega⟩
    · rw [if_neg hroom]
      rw [Config.fifoPlaces_eq] at hroom
      exact ⟨hf, fun _ => by omega⟩

theorem PortInOrder.placeWaiting (h : PortInOrder p) : PortInOrder p.placeWaiting :=
  Port.placeWaiting_inOrder h.fifo fun hw => by have := h.waiting hw; omega

theorem Port.begin_cases (p : Port) (running : Bool) (mode : LoopbackMode) (ms : Nat) :
    p.begin running mode ms = p ∨ running = true ∧ p.inFlight = none ∧
      (p.probeDue = true ∧ p.begin running mode ms =
          { p with probeDue := false, inFlight := some ⟨.probe, 2, responderReply mode .probe⟩ } ∨
        p.probeDue = false ∧ ∃ o os, p.fifo = o :: os ∧ p.begin running mode ms =
          { p with fifo := os, inFlight := some ⟨.order o, ms, responderReply mode (.order o)⟩ }.placeWaiting) := by
  by_cases h : running = false ∨ p.inFlight ≠ none ∨ p.probeDue = false ∧ p.fifo = []
  · exact .inl (Port.begin_idle h)
  · simp only [not_or, Bool.not_eq_false, not_and] at h
    obtain ⟨rfl, hf, hd⟩ := h
    have hf : p.inFlight = none := not_not.mp hf
    refine .inr ⟨rfl, hf, ?_⟩
    cases hdue : p.probeDue with
    | true => exact .inl ⟨rfl, Port.begin_probe hf hdue⟩
    | false =>
      cases ho : p.fifo with
      | nil => exact absurd ho (hd hdue)
      | cons o os => exact .inr ⟨rfl, o, os, rfl, (Port.begin_order hf hdue ho).trans (by rw [hdue])⟩

theorem PortInOrder.begin (h : PortInOrder p) (running : Bool) (mode : LoopbackMode) (ms : Nat) :
    PortInOrder (p.begin running mode ms) := by
  rcases p.begin_cases running mode ms with hb | ⟨-, -, ⟨-, hb⟩ | ⟨-, o, os, ho, hb⟩⟩
  · rw [hb]; exact h
  · rw [hb]; exact ⟨h.fifo, h.waiting⟩
  · rw [hb]
    have hlen : p.fifo.length = os.length + 1 := by rw [ho]; rfl
    have hf := h.fifo
    exact Port.placeWaiting_inOrder (by simp only; omega) fun hw => by have := h.waiting hw; simp only; omega

theorem Port.begin_still (hr : running = false) (mode : LoopbackMode) (ms : Nat) : p.begin running mode ms = p :=
  Port.begin_idle (.inl hr)

theorem PortInOrder.leave (h : PortInOrder p) (c : ContextNo) : PortInOrder (p.leave c) := by
  refine ⟨by simpa [Port.leave] using h.fifo, fun hw => ?_⟩
  have : p.waiting ≠ [] := by
    intro h0
    rw [Port.leave, h0] at hw
    exact hw rfl
  simpa [Port.leave] using h.waiting this

theorem Port.Still.leave (h : p.Still) (c : ContextNo) : (p.leave c).Still := by
  obtain ⟨hf, hrest⟩ := h
  exact ⟨by simp [Port.leave, hf], hrest⟩

theorem StoresInOrder.beginExchange (h : StoresInOrder s) (a : AntennaNo) : StoresInOrder (s.beginExchange a) :=
  h.mapPort a (fun hp => hp.begin _ _ _) fun hr hs => by rw [Port.begin_still hr]; exact hs

theorem StoresInOrder.endExchange (h : StoresInOrder s) (a : AntennaNo) : StoresInOrder (s.endExchange a) :=
  h.mapPort a (fun hp => ⟨hp.fifo, hp.waiting⟩) fun _ hs => ⟨rfl, hs.2⟩

theorem Port.Still.post (h : p.Still) (o : Order) : (p.post o).Still := by
  unfold Port.post; split <;> exact h

theorem StoresInOrder.postOrder (h : StoresInOrder s) (a : AntennaNo) (o : Order) : StoresInOrder (s.postOrder a o) :=
  (h.mapPort a (fun hp => hp.post o) fun _ hs => hs.post o).beginExchange a

theorem StoresInOrder.stopAwaiting (h : StoresInOrder s) (c : ContextNo) : StoresInOrder (s.stopAwaiting c) := by
  unfold State.stopAwaiting
  split
  · exact h
  · split
    · exact h
    · exact (h.mapPort _ (fun hp => hp.leave c) fun _ hs => hs.leave c).mapCtx _ _

/-! ### Slots and lanes (R47, R49, R51) -/

theorem StoresInOrder.setSlot (h : StoresInOrder s) (a : AntennaNo) (sl : SlotNo) (v : Slot) : StoresInOrder (s.setSlot a sl v) :=
  h.mapAnt a (fun hr => hr) fun _ => rfl

theorem StoresInOrder.mapLanes (h : StoresInOrder s) (a : AntennaNo) {f : Lanes → Lanes}
    (hf : LanesApart (s.ant a).lanes → LanesApart (f (s.ant a).lanes)) : StoresInOrder (s.mapLanes a f) :=
  h.mapAnt a (fun ⟨hp, ho, hl⟩ => ⟨hp, ho, hf hl⟩) fun _ => rfl

theorem EntryInOrder.nodup (h : EntryInOrder x) : (presentGroups x.groupA x.groupB).Nodup := presentGroups_nodup h.groups.2.2

theorem StoresInOrder.releaseSlot (h : StoresInOrder s) (a : AntennaNo) (sl : SlotNo) : StoresInOrder (s.releaseSlot a sl) := by
  unfold State.releaseSlot
  split
  · split
    · exact h
    · exact (h.setSlot _ _ _).postOrder _ _
  · split
    · exact h
    · exact (h.setSlot _ _ _).postOrder _ _
  · exact h
  · exact h

theorem StoresInOrder.releaseAt (h : StoresInOrder s) (w : Option (AntennaNo × SlotNo)) : StoresInOrder (s.releaseAt w) := by
  cases w with
  | none => exact h
  | some w => exact h.releaseSlot _ _

theorem StoresInOrder.freeSlot (h : StoresInOrder s) (a : AntennaNo) (sl : SlotNo) : StoresInOrder (s.freeSlot a sl) := by
  unfold State.freeSlot
  split
  · exact h
  · refine (h.setSlot a sl .free).mapLanes a fun hl => ?_
    split
    · exact hl
    next x hx => exact (hl.uncountAll (h.entries _ x hx).nodup).1

theorem Antenna.roomForAll {r : Antenna} {groups : List Group} (h : r.laneCheckFails groups = false) :
    Lanes.RoomForAll r.lanes groups := by
  rw [Antenna.laneCheckFails, decide_eq_false_iff_not, Nat.not_lt] at h
  refine le_trans (le_of_eq ?_) h
  congr 1
  refine List.filter_congr fun g _ => ?_
  rw [Bool.eq_iff_iff, decide_eq_true_iff, Option.isNone_iff_eq_none, Lanes.find_none]

/-- A claim after a lane check that succeeds (R46, R47). -/
theorem StoresInOrder.claim (h : StoresInOrder s) {groups : List Group} (hn : groups.Nodup)
    (hr : Lanes.RoomForAll (s.ant a).lanes groups) (sl : SlotNo) (e : EntryNo) : StoresInOrder (s.claim a sl e groups) := by
  refine (h.setSlot a sl (.reserved e)).mapLanes a fun hl => ?_
  have hlanes : ((s.setSlot a sl (.reserved e)).ant a).lanes = (s.ant a).lanes := by rw [State.ant_setSlot]
  rw [hlanes] at hl ⊢
  exact (hl.countAll hn hr).1

theorem StoresInOrder.undoReservation (h : StoresInOrder s) (c : ContextNo) : StoresInOrder (s.undoReservation c) := by
  unfold State.undoReservation
  split
  · exact h
  · simp only
    split
    · split
      · exact (h.releaseSlot _ _).mapCtx _ _
      · exact h.mapCtx _ _
    · exact h.mapCtx _ _

theorem StoresInOrder.giveUpAttempt (h : StoresInOrder s) (c : ContextNo) : StoresInOrder (s.giveUpAttempt c) :=
  ((h.mapCtx c _).stopAwaiting c).undoReservation c

end Sys2Proof.Machine
end

section
/-! Every step keeps the stores in order, part two: the dispositions, the dispatch, completion and the sweep. -/

namespace Sys2Proof.Machine

variable {s t u : State} {a b : AntennaNo} {sl : SlotNo} {e : EntryNo} {x x' : Entry} {c : ContextNo} {y : Context} {v : Survey}

/-! ### Entries (R2, R57) -/

/-- The survey items of an entry keep to R57 and R62. -/
def SurveyInOrder (v : Survey) : Prop := ListKept v.candidates ∧ v.leadCount ≤ 16

theorem EntryInOrder.survey (h : EntryInOrder x) : SurveyInOrder x.survey := ⟨h.candidates, h.lead⟩

/-- An entry that keeps what the host has set. -/
theorem EntryInOrder.of (h : EntryInOrder x) (hg : x'.given = x.given)
    (hs : x'.serving.isSome = true ↔ x'.state = .served ∨ x'.state = .moving) (hv : SurveyInOrder x'.survey) :
    EntryInOrder x' := by
  simp only [Entry.given, Prod.mk.injEq] at hg
  obtain ⟨hid, -, ha, hb, -, -⟩ := hg
  exact ⟨hid ▸ h.id, ha ▸ hb ▸ h.groups, hs, hv.1, hv.2⟩

theorem SurveyInOrder.empty : SurveyInOrder ⟨none, [], none, 0, none⟩ := ⟨⟨Nat.zero_le _, .nil, .nil⟩, Nat.zero_le _⟩

theorem EntryInOrder.offAir (h : EntryInOrder x) : EntryInOrder x.offAir :=
  h.of rfl (by simp [Entry.offAir]) SurveyInOrder.empty

theorem SurveyInOrder.resetLead (h : SurveyInOrder v) : SurveyInOrder v.resetLead := ⟨h.1, Nat.zero_le _⟩

theorem SurveyInOrder.remove (h : SurveyInOrder v) (a : AntennaNo) : SurveyInOrder (v.remove a) := by
  rw [Survey.remove_eq]
  refine ⟨h.1.sublist List.filter_sublist, ?_⟩
  simp only
  split
  · exact Nat.zero_le _
  · exact h.2

theorem Survey.add_leadCount (v : Survey) (k : Candidate) (forced : Bool) : (v.add k forced).leadCount ≤ v.leadCount := by
  unfold Survey.add
  split
  · exact le_refl _
  · split
    · exact le_refl _
    · split
      · simp only [Survey.remove_eq]
        split
        · exact Nat.zero_le _
        · exact le_refl _
      · exact le_refl _

theorem Survey.update_leadCount (v : Survey) (a : AntennaNo) (q : Byte) (n ms : Nat) :
    (v.update a q n ms).leadCount ≤ v.leadCount := by
  rw [Survey.update_eq]
  split
  · exact le_refl _
  · exact v.add_leadCount _ _

theorem Survey.force_leadCount (v : Survey) (a : AntennaNo) (q : Byte) (ms : Nat) :
    (v.force a q ms).leadCount ≤ v.leadCount := by
  rw [Survey.force_eq]
  split
  · exact le_refl _
  · exact v.add_leadCount _ _

theorem SurveyInOrder.update (h : SurveyInOrder v) (a : AntennaNo) (q : Byte) (n ms : Nat) : SurveyInOrder (v.update a q n ms) :=
  ⟨Survey.update_kept h.1 a q n ms, (v.update_leadCount a q n ms).trans h.2⟩

theorem SurveyInOrder.force (h : SurveyInOrder v) (a : AntennaNo) (q : Byte) (ms : Nat) : SurveyInOrder (v.force a q ms) :=
  ⟨Survey.force_kept h.1 a q ms, (v.force_leadCount a q ms).trans h.2⟩

theorem SurveyInOrder.sampleServing (h : SurveyInOrder v) (q : Byte) (n : Nat) : SurveyInOrder (v.sampleServing q n) := h

theorem SurveyInOrder.arrive (h : SurveyInOrder v) (a : AntennaNo) (b : Option AntennaNo) : SurveyInOrder (v.arrive a b) :=
  ⟨dropCandidate_kept h.1, Nat.zero_le _⟩

/-- The former serving antenna joins the list as an update of it would (R64). -/
theorem Survey.completeMove_eq (v : Survey) (ms : Nat) : v.completeMove ms = match v.former with
    | none => v
    | some (a, score) => match findCandidate a v.candidates with
      | some _ => { v with former := none }
      | none => { v with former := none }.update a score 0 ms := by
  unfold Survey.completeMove
  cases v.former with
  | none => rfl
  | some w =>
    simp only [Survey.update_eq]
    cases findCandidate w.1 v.candidates <;> rfl

theorem SurveyInOrder.completeMove (h : SurveyInOrder v) (ms : Nat) : SurveyInOrder (v.completeMove ms) := by
  have h' : SurveyInOrder { v with former := none } := h
  rw [Survey.completeMove_eq]
  split
  · exact h
  · split
    · exact h'
    · exact h'.update _ _ _ _

theorem EntryInOrder.setSurvey (h : EntryInOrder x) (hv : SurveyInOrder v) : EntryInOrder { x with survey := v } :=
  h.of rfl h.serving hv

/-- The end of a transaction, by the state it ends in (R9). -/
theorem EntryInOrder.endTransaction (h : EntryInOrder x) (k : Kind) (ms : Nat) : EntryInOrder (x.endTransaction k ms) := by
  have hs := h.serving
  unfold Entry.endTransaction
  cases hst : x.state with
  | moving => exact h.of rfl (by simpa [hst] using hs) h.survey
  | attaching =>
    cases k with
    | attach => exact h.offAir
    | move | summon => exact h.of rfl (by simpa [hst] using hs) h.survey
  | lost =>
    simp only
    split
    · exact h.offAir
    · exact h.of rfl (by simpa [hst] using hs) h.survey
  | served | unattached => exact h.of rfl (by simpa [hst] using hs) h.survey

theorem EntryInOrder.complete (h : EntryInOrder x) (ms : Nat) : EntryInOrder (x.complete ms) := by
  unfold Entry.complete
  split
  · exact h.of rfl h.serving h.survey
  · split
    · exact h.offAir
    · exact h.of rfl h.serving h.survey
  all_goals exact h.of rfl h.serving h.survey

theorem EntryInOrder.dispatch (h : EntryInOrder x) (c : ContextNo) (fresh : Bool) : EntryInOrder (x.dispatch c fresh) := by
  have hs := h.serving
  unfold Entry.dispatch
  simp only
  split
  next hst => exact h.of rfl (by simpa [hst] using hs) h.survey
  next hst => exact h.of rfl (by simpa [hst] using hs) h.survey
  next => exact h.of rfl hs h.survey
  next => exact h.of rfl hs h.survey
  next => exact h.of rfl hs h.survey

theorem EntryInOrder.arrive (h : EntryInOrder x) (a : AntennaNo) (sl : SlotNo) (b : Option AntennaNo) :
    EntryInOrder (x.arrive a sl b) :=
  h.of rfl (by simp [Entry.arrive]) (h.survey.arrive a b)

theorem Entry.endTransaction_id (x : Entry) (k : Kind) (ms : Nat) : (x.endTransaction k ms).id = x.id :=
  congrArg Prod.fst (x.endTransaction_given k ms)

theorem Entry.complete_id (x : Entry) (ms : Nat) : (x.complete ms).id = x.id := congrArg Prod.fst (x.complete_given ms)

theorem Entry.dispatch_id (x : Entry) (c : ContextNo) (fresh : Bool) : (x.dispatch c fresh).id = x.id :=
  congrArg Prod.fst (x.dispatch_given c fresh)

theorem StoresInOrder.mapSurvey (h : StoresInOrder s) (e : EntryNo) {f : Survey → Survey}
    (hf : ∀ v, SurveyInOrder v → SurveyInOrder (f v)) : StoresInOrder (s.mapSurvey e f) :=
  h.mapEntry e (fun _ _ hx => hx.setSurvey (hf _ hx.survey)) fun _ => rfl

/-- Fields of an entry but those of `EntryInOrder` changed. -/
theorem StoresInOrder.mapMarks (h : StoresInOrder s) (e : EntryNo) {f : Entry → Entry}
    (hf : ∀ x, (f x).given = x.given ∧ (f x).serving = x.serving ∧ (f x).state = x.state ∧ (f x).survey = x.survey) :
    StoresInOrder (s.mapEntry e f) := by
  refine h.mapEntry e (fun x _ hx => ?_) fun x => congrArg Prod.fst (hf x).1
  obtain ⟨hg, hs, hst, hv⟩ := hf x
  exact hx.of hg (by rw [hs, hst]; exact hx.serving) (by rw [hv]; exact hx.survey)

/-! ### The queue -/

theorem StoresInOrder.raiseRequest (h : StoresInOrder s) (e : EntryNo) (w : Raise) : StoresInOrder (s.raiseRequest e w) :=
  h.setQueue (h.queue.raiseRequest e w) (State.raiseRequest_rest s e w)

theorem StoresInOrder.removeRequest (h : StoresInOrder s) (e : EntryNo) : StoresInOrder (s.removeRequest e) :=
  h.setQueue (h.queue.removeRequest e) rfl

theorem StoresInOrder.requeue (h : StoresInOrder s) (hn : s.queue.length < 16) (y : Context) (n : Nat) (d : Bool) :
    StoresInOrder (s.requeue y n d) :=
  h.setQueue (h.queue.enqueue rfl hn) rfl

/-! ### Dispositions -/

theorem StoresInOrder.notifyEnd (h : StoresInOrder s) (e : EntryNo) (x : Entry) (k : Kind) : StoresInOrder (s.notifyEnd e x k) := by
  rw [State.notifyEnd_rest]; exact h.of_kept

theorem StoresInOrder.endTransaction (h : StoresInOrder s) (c : ContextNo) : StoresInOrder (s.endTransaction c) := by
  unfold State.endTransaction
  split
  · exact h
  next y _ =>
    simp only
    split
    · exact h.putCtx c none
    · exact ((h.putCtx c none).mapEntry _ (fun _ _ hx => hx.endTransaction _ _) fun x => x.endTransaction_id _ _).notifyEnd _ _ _

theorem StoresInOrder.recordConditions (h : StoresInOrder s) (e : EntryNo) (k : ConditionSet) :
    StoresInOrder (s.recordConditions e k) := by
  unfold State.recordConditions
  refine StoresInOrder.mapLink (StoresInOrder.mapMarks h _ ?_) _
  exact fun _ => ⟨rfl, rfl, rfl, rfl⟩

theorem StoresInOrder.recordReleaseTimeout (h : StoresInOrder s) (e : EntryNo) : StoresInOrder (s.recordReleaseTimeout e) := by
  unfold State.recordReleaseTimeout
  refine StoresInOrder.mapLink (StoresInOrder.mapMarks h _ ?_) _
  exact fun _ => ⟨rfl, rfl, rfl, rfl⟩

theorem StoresInOrder.reportForced (h : StoresInOrder s) (y : Context) (k : Condition) (d : Decision) :
    StoresInOrder (s.reportForced y k d) := by
  unfold State.reportForced
  split
  · exact h
  · split
    · exact h.queueNotice _
    · exact h

theorem StoresInOrder.postFault (h : StoresInOrder s) (c : ContextNo) (y : Context) (k : Condition) :
    StoresInOrder (s.postFault c y k) := by
  unfold State.postFault
  simp only
  split
  · exact (h.giveUpAttempt c).endTransaction c
  · refine StoresInOrder.endTransaction (StoresInOrder.queueNotice (StoresInOrder.mapMarks (h.giveUpAttempt c) _ ?_) _) c
    exact fun _ => ⟨rfl, rfl, rfl, rfl⟩

theorem StoresInOrder.moveOn (h : StoresInOrder s) (c : ContextNo) (y : Context) : StoresInOrder (s.moveOn c y) :=
  (h.giveUpAttempt c).mapCtx c _

theorem StoresInOrder.reEnter (h : StoresInOrder s) (hn : s.queue.length < 16) (c : ContextNo) (y : Context) :
    StoresInOrder (s.reEnter c y) :=
  ((h.giveUpAttempt c).requeue (by rw [State.giveUpAttempt_queue]; exact hn) _ _ _).endTransaction c

theorem StoresInOrder.displace (h : StoresInOrder s) (hn : s.queue.length < 16) (c : ContextNo) (y : Context) (v : EntryNo) :
    StoresInOrder (s.displace c y v) := by
  have hroom : (s.giveUpAttempt c).queue.length < 16 := by rw [State.giveUpAttempt_queue]; exact hn
  have hq := (h.giveUpAttempt c).requeue hroom y y.retry true
  rw [State.displace]
  exact StoresInOrder.raiseRequest (hq.endTransaction c) _ _

theorem StoresInOrder.postAwaited (h : StoresInOrder s) (c : ContextNo) (a : AntennaNo) (o : Order) :
    StoresInOrder (s.postAwaited c a o) :=
  (h.mapCtx c _).postOrder a o

theorem StoresInOrder.postSummon (h : StoresInOrder s) (c : ContextNo) : StoresInOrder (s.postSummon c) := by
  unfold State.postSummon
  split
  · exact h
  · split
    · exact h.postAwaited _ _ _
    · exact h

theorem StoresInOrder.convert (h : StoresInOrder s) (c : ContextNo) (y : Context) : StoresInOrder (s.convert c y) := by
  have hm := (h.mapCtx c fun y => { y with kind := .summon, source := none }).mapEntry y.entry
    (f := fun z => { z with state := .attaching, serving := none, survey := { z.survey with servingScore := none } })
    (fun z _ hz => hz.of rfl (by simp) hz.survey) fun _ => rfl
  unfold State.convert
  simp only
  split
  · exact ((hm.stopAwaiting c).mapCtx c _).postSummon c
  · exact hm

/-! ### The choice of a target, the disposal and the dispatch -/

theorem StoresInOrder.tryTarget (h : StoresInOrder s) (c : ContextNo) (first : Bool) : StoresInOrder (s.tryTarget c first).1 := by
  cases hy : s.ctx c with
  | none => rw [State.tryTarget, hy]; exact h
  | some y =>
    rcases State.tryTarget_cases hy first with ⟨t, k, -, ht⟩ | ⟨a, sl, x, -, hx, -, hadm, -, ht⟩
    · rw [ht]; exact h.of_kept
    · obtain ⟨-, -, -, hlane⟩ := Antenna.lowestFree_of_admissionTest hadm
      have hclaim := h.claim (h.entries _ x hx).nodup (Antenna.roomForAll hlane) sl y.entry
      rw [ht]
      exact StoresInOrder.postOrder (hclaim.of_kept) _ _

/-- A decision that hands a request back has found room for it (R85). -/
theorem State.decideDisposal_room {k : Condition} {d : Decision} (h : s.decideDisposal y k = d)
    (hd : d = .reEnter ∨ ∃ v, d = .displace v) : s.queue.length < 16 := by
  rcases hd with rfl | ⟨v, rfl⟩
  · unfold State.decideDisposal at h
    split at h
    · cases h
    · split at h
      case h_5 =>
        rw [State.decideReEnter_eq] at h
        split at h
        next hroom => exact hroom.2
        next => cases h
      case h_6 =>
        unfold State.decideDisplace at h
        split at h
        · cases h
        · split at h <;> cases h
      all_goals cases h
  · exact (State.decideDisplace_displace (State.decideDisposal_displace h)).2.2.1

theorem StoresInOrder.disposeChain (n : Nat) (c : ContextNo) : ∀ (s : State) (found : ConditionSet), StoresInOrder s →
    StoresInOrder (State.disposeChain n c found s) := by
  induction n with
  | zero => exact fun _ _ h => h
  | succ n ih =>
    intro s found h
    rw [State.disposeChain]
    split
    next y k _ _ =>
      simp only
      generalize hd : (s.recordConditions y.entry found).decideDisposal y k = d
      have hu := (h.recordConditions y.entry found).reportForced y k d
      have hroom : d = .reEnter ∨ (∃ v, d = .displace v) →
          ((s.recordConditions y.entry found).reportForced y k d).queue.length < 16 := fun hd' => by
        rw [State.reportForced_queue]; exact State.decideDisposal_room hd hd'
      cases d with
      | post => exact hu.postFault _ _ _
      | stop => exact (hu.giveUpAttempt _).endTransaction _
      | reEnter => exact hu.reEnter (hroom (.inl rfl)) _ _
      | displace v => exact hu.displace (hroom (.inr ⟨v, rfl⟩)) _ _ _
      | convert => exact hu.convert _ _
      | next =>
        simp only
        have ht := (hu.moveOn c y).tryTarget c false
        split
        · exact ht
        · exact ih _ _ ht
    next => exact h

theorem StoresInOrder.dispose (h : StoresInOrder s) (c : ContextNo) (found : ConditionSet) : StoresInOrder (s.dispose c found) :=
  StoresInOrder.disposeChain _ _ _ _ h

theorem StoresInOrder.handOver (h : StoresInOrder s) (c : ContextNo) (r : Request) : StoresInOrder (s.handOver c r) := by
  unfold State.handOver
  simp only
  split
  · exact h.removeRequest _
  next y _ =>
    have hu := (((h.removeRequest r.entry).mapEntry r.entry (f := (·.dispatch c r.fresh)) (fun _ _ hx => hx.dispatch _ _)
      fun x => x.dispatch_id _ _).putCtx c (some (r.context y))).tryTarget c true
    split
    · exact hu
    · exact hu.dispose _ _

theorem StoresInOrder.dispatchLoop (n : Nat) : ∀ s : State, StoresInOrder s → StoresInOrder (State.dispatchLoop n s) := by
  induction n with
  | zero => exact fun _ h => h
  | succ n ih =>
    intro s h
    rw [State.dispatchLoop]
    split
    · exact h
    next t ht =>
      obtain ⟨c, r, -, -, rfl⟩ := State.dispatchOne_some ht
      exact ih _ (h.handOver c r)

theorem StoresInOrder.settle (h : StoresInOrder s) : StoresInOrder s.settle := StoresInOrder.dispatchLoop _ _ h

/-! ### Completion, and transitions of the Roster -/

theorem StoresInOrder.complete (h : StoresInOrder s) (c : ContextNo) : StoresInOrder (s.complete c) := by
  unfold State.complete
  split
  · exact h
  next y _ =>
    simp only
    split
    · exact h.putCtx _ _
    · have hm := (h.mapSurvey y.entry (f := (·.completeMove s.candidateLifetime)) fun v hv => hv.completeMove _).mapEntry
        y.entry (f := (·.complete (s.mapSurvey y.entry (·.completeMove s.candidateLifetime)).settleTime))
        (fun _ _ hx => hx.complete _) fun x => x.complete_id _
      split
      · exact ((hm.queueNotice _).queueNotice _).putCtx _ _
      · exact (hm.queueNotice _).putCtx _ _

theorem StoresInOrder.notify (h : StoresInOrder s) (e : EntryNo) (n : BeltpackId → Notice) : StoresInOrder (s.notify e n) := by
  unfold State.notify
  split
  · exact h
  · exact h.queueNotice _

theorem StoresInOrder.loseServing (h : StoresInOrder s) (e : EntryNo) (a : AntennaNo) : StoresInOrder (s.loseServing e a) := by
  unfold State.loseServing
  refine StoresInOrder.notify (StoresInOrder.mapEntry h _ ?_ ?_) _ _
  · exact fun _ _ hx => EntryInOrder.of hx rfl (by simp) ⟨hx.candidates, Nat.zero_le _⟩
  · exact fun _ => rfl

theorem StoresInOrder.detachWith (h : StoresInOrder s) (e : EntryNo) (r : UnattachedReason) : StoresInOrder (s.detachWith e r) :=
  (h.mapEntry e (fun _ _ hx => hx.offAir) fun _ => rfl).notify e _

theorem StoresInOrder.raiseEvacuation (h : StoresInOrder s) (e : EntryNo) : StoresInOrder (s.raiseEvacuation e) := by
  unfold State.raiseEvacuation
  split
  · exact h
  · exact h.raiseRequest e _

/-! ### The sweep -/

theorem StoresInOrder.sweepOccupied (h : StoresInOrder s) (a : AntennaNo) (late : Option ContextNo) (e : EntryNo) :
    StoresInOrder (s.sweepOccupied a late e) := by
  unfold State.sweepOccupied
  split
  · exact h
  · split
    · exact (h.loseServing e a).raiseEvacuation e
    · split
      · exact h
      · split
        · exact h.loseServing e a
        · exact h.dispose _ _

theorem StoresInOrder.sweepReserved (h : StoresInOrder s) (late : Option ContextNo) (e : EntryNo) :
    StoresInOrder (s.sweepReserved late e) := by
  unfold State.sweepReserved
  split
  · exact h
  · exact h.dispose _ _

theorem StoresInOrder.afterRelease (h : StoresInOrder s) (a : AntennaNo) (sl : SlotNo) (e : EntryNo) :
    StoresInOrder (s.afterRelease a sl e) := by
  unfold State.afterRelease
  split
  · exact h
  · exact h.complete _

theorem StoresInOrder.sweepSlot (h : StoresInOrder s) (a : AntennaNo) (late : Option ContextNo) (sl : SlotNo) :
    StoresInOrder (State.sweepSlot a late s sl) := by
  unfold State.sweepSlot
  split
  · exact h
  · exact (h.setSlot a sl .free).sweepOccupied _ _ _
  · exact (h.setSlot a sl .free).sweepReserved _ _
  · exact (h.setSlot a sl .free).afterRelease _ _ _

theorem StoresInOrder.sweepSlots (a : AntennaNo) (late : Option ContextNo) (sls : List SlotNo) : ∀ s : State, StoresInOrder s →
    StoresInOrder (sls.foldl (State.sweepSlot a late) s) := by
  induction sls with
  | nil => exact fun _ h => h
  | cons sl sls ih => exact fun s h => ih _ (h.sweepSlot a late sl)

theorem StoresInOrder.setChangeFlag (h : StoresInOrder s) (a : AntennaNo) : StoresInOrder (s.setChangeFlag a) := by
  unfold State.setChangeFlag
  simp only
  split
  · exact h
  · exact StoresInOrder.queueNotice (StoresInOrder.mapLink (StoresInOrder.mapAnt h _ (fun hr => hr) fun _ => rfl) _) _

/-- A change of an antenna record that keeps its counts and lanes in order. -/
theorem StoresInOrder.changeAntenna (h : StoresInOrder s) (a : AntennaNo) {f : Antenna → Antenna}
    (hf : AntennaInOrder (s.ant a) → AntennaInOrder (f (s.ant a)))
    (hl : s.running = false → (f (s.ant a)).link = .absent) : StoresInOrder (s.changeAntenna a f) := by
  have hm : StoresInOrder (s.mapAnt a f) :=
    h.mapAnt a hf fun hr => (hl hr).trans (h.stopped hr a).1.symm
  unfold State.changeAntenna
  simp only
  split
  · exact hm
  · exact hm.setChangeFlag a

theorem StoresInOrder.drainTest (h : StoresInOrder s) (a : AntennaNo) (how : EmptiedBy) : StoresInOrder (s.drainTest a how) := by
  unfold State.drainTest
  split
  · exact (h.changeAntenna a (fun hr => hr) fun hr => (h.stopped hr a).1).queueNotice _
  · exact h

theorem StoresInOrder.closingSweep (h : StoresInOrder s) (a : AntennaNo) (late : Option ContextNo) :
    StoresInOrder (s.closingSweep a late) := by
  have hcleared : StoresInOrder (s.mapPort a Port.clear) :=
    h.mapPort a (fun _ => ⟨Nat.zero_le _, fun hw => absurd rfl hw⟩) fun _ hs => ⟨rfl, hs.2⟩
  exact (((StoresInOrder.sweepSlots a late _ _ hcleared).mapLanes a fun _ => LanesApart.empty).drainTest a _).beginExchange a

theorem StoresInOrder.changeAndSweep (h : StoresInOrder s) (a : AntennaNo) (late : Option ContextNo) {f : Antenna → Antenna}
    (hf : AntennaInOrder (s.ant a) → AntennaInOrder (f (s.ant a)))
    (hl : s.running = false → (f (s.ant a)).link = .absent) : StoresInOrder (s.changeAndSweep a late f) := by
  have hc := h.changeAntenna a hf hl
  unfold State.changeAndSweep
  simp only
  split
  · exact hc.closingSweep a late
  · exact hc

end Sys2Proof.Machine
end

section
/-! Every step keeps the stores in order, part three: replies, timeouts, reports, timers, and every event. -/

namespace Sys2Proof.Machine

variable {s t u : State} {a b : AntennaNo} {sl : SlotNo} {e : EntryNo} {x x' : Entry} {c : ContextNo} {y : Context} {v : Survey}

/-! ### Outcomes of orders -/

theorem StoresInOrder.postCue (h : StoresInOrder s) (c : ContextNo) : StoresInOrder (s.postCue c) := by
  unfold State.postCue
  split
  · exact h
  · split
    · exact (h.mapCtx c _).postAwaited _ _ _
    · exact h

theorem StoresInOrder.ackOutcome (h : StoresInOrder s) (c : ContextNo) : StoresInOrder (s.ackOutcome c) := by
  unfold State.ackOutcome
  split
  · exact h
  · have hm := h.mapCtx c fun y => { y with awaited := none }
    simp only
    split
    · exact hm.postCue c
    · exact (hm.mapCtx c _).postSummon c
    · exact hm.mapCtx c _
    · exact hm.mapCtx c _
    · exact hm
    · exact hm

theorem StoresInOrder.endRelease (h : StoresInOrder s) (a : AntennaNo) (sl : SlotNo) : StoresInOrder (s.endRelease a sl) := by
  unfold State.endRelease
  split
  · exact ((h.freeSlot a sl).afterRelease a sl _).drainTest a _
  all_goals exact h

theorem StoresInOrder.giveOutcome (h : StoresInOrder s) (a : AntennaNo) (o : Order) (w : OrderOutcome) :
    StoresInOrder (s.giveOutcome a o w) := by
  unfold State.giveOutcome
  split
  · exact h
  · cases w with
    | acked => exact h.ackOutcome _
    | refused => exact h.dispose _ _
    | timedOut => exact h.dispose _ _
  · refine StoresInOrder.endRelease ?_ _ _
    split
    · split
      · exact h.recordReleaseTimeout _
      · exact h
    · exact h

/-! ### Replies and timeouts (R29 to R32) -/

theorem StoresInOrder.running_of_inFlight (h : StoresInOrder s) (hf : (s.port a).inFlight ≠ none) : s.running = true := by
  cases hr : s.running with
  | true => rfl
  | false => exact absurd (h.stopped hr a).2.1 hf

theorem Port.inFlight_of_probe {p : Port} (h : p.probeInFlight = true) : p.inFlight ≠ none := by
  intro hf
  rw [Port.probeInFlight, hf] at h
  cases h

theorem StoresInOrder.settledExchange (h : StoresInOrder s) (a : AntennaNo) : StoresInOrder (s.beginExchange a).settle :=
  (h.beginExchange a).settle

theorem StoresInOrder.latchStray (h : StoresInOrder s) : StoresInOrder s.latchStray := h.mapLink _

theorem StoresInOrder.takeOrderReply (h : StoresInOrder s) (a : AntennaNo) (k : Byte) (id : BeltpackId) (slot : Byte)
    (w : OrderOutcome) : StoresInOrder (s.takeOrderReply a k id slot w) := by
  unfold State.takeOrderReply
  split
  · exact h.latchStray
  · split
    · have hm := (h.endExchange a).mapAnt a (f := fun r => { r with orderMisses := 0 })
        (fun ⟨hp, _, hl⟩ => ⟨hp, Nat.zero_le _, hl⟩) fun _ => rfl
      exact (hm.giveOutcome a _ w).settledExchange a
    · exact h.latchStray

theorem StoresInOrder.takeStatus (h : StoresInOrder s) (a : AntennaNo) (mode fault : Byte) :
    StoresInOrder (s.takeStatus a mode fault) := by
  unfold State.takeStatus
  split
  next l hm hp =>
    have hrun := h.running_of_inFlight (Port.inFlight_of_probe hp)
    refine StoresInOrder.settledExchange (StoresInOrder.changeAndSweep (h.endExchange a) a none ?_ ?_) a
    · exact fun ⟨_, ho, hl⟩ => ⟨Nat.zero_le _, ho, hl⟩
    · exact fun hr => absurd (hrun.symm.trans hr) (by decide)
  · exact h.latchStray

theorem StoresInOrder.takeReply (h : StoresInOrder s) (a : AntennaNo) (r : PortReply) : StoresInOrder (s.takeReply a r) := by
  cases r with
  | status mode fault => exact h.takeStatus a mode fault
  | ack k id slot => exact h.takeOrderReply a k id slot .acked
  | refuse k id slot => exact h.takeOrderReply a k id slot .refused

theorem StoresInOrder.missProbe (h : StoresInOrder s) (hr : s.running = true) (a : AntennaNo) : StoresInOrder (s.missProbe a) := by
  unfold State.missProbe
  refine StoresInOrder.settledExchange (StoresInOrder.changeAndSweep h a none ?_ ?_) a
  · exact fun ⟨_, ho, hl⟩ => ⟨Nat.min_le_left _ _, ho, hl⟩
  · exact fun hr' => absurd (hr.symm.trans hr') (by decide)

theorem StoresInOrder.countTimeout (h : StoresInOrder s) (a : AntennaNo) (late : Option ContextNo) :
    StoresInOrder (s.changeAndSweep a late Antenna.countTimeout) :=
  h.changeAndSweep a late (fun ⟨hp, _, hl⟩ => ⟨hp, Nat.min_le_left _ _, hl⟩) fun hr => (h.stopped hr a).1

theorem StoresInOrder.timeOutOrder (h : StoresInOrder s) (a : AntennaNo) (o : Order) : StoresInOrder (s.timeOutOrder a o) := by
  unfold State.timeOutOrder
  refine StoresInOrder.settledExchange ?_ a
  cases o.poster with
  | slot sl => exact (h.giveOutcome a o .timedOut).countTimeout a none
  | nobody => exact h.countTimeout a none
  | context c =>
    simp only
    split
    · exact h.countTimeout a (some c)
    · exact (h.countTimeout a none).giveOutcome a o .timedOut

/-! ### Sightings (R58 to R71) -/

theorem StoresInOrder.dwell_le (h : StoresInOrder s) : (s.policy.get 1).toNat + 1 ≤ 16 := by
  have := (h.policy 1 0 15 rfl).2
  omega

theorem StoresInOrder.considerDrain (h : StoresInOrder s) (e : EntryNo) : StoresInOrder (s.considerDrain e) := by
  unfold State.considerDrain
  split
  · exact h
  · split
    · exact h.raiseRequest _ _
    · exact h

theorem StoresInOrder.considerFade (h : StoresInOrder s) (e : EntryNo) : StoresInOrder (s.considerFade e) := by
  unfold State.considerFade
  split
  · exact h
  · split
    · exact h.raiseRequest _ _
    · exact h

theorem StoresInOrder.considerEvacuation (h : StoresInOrder s) (e : EntryNo) : StoresInOrder (s.considerEvacuation e) := by
  unfold State.considerEvacuation
  split
  · exact h
  · split
    · exact h.raiseEvacuation _
    · exact h

theorem Survey.countLead_candidates (v : Survey) (k : Option Candidate) (margin : Nat) :
    (v.countLead k margin).candidates = v.candidates := by
  unfold Survey.countLead
  split
  · split
    · rfl
    · split <;> rfl
  · rfl

theorem StoresInOrder.evaluate (h : StoresInOrder s) (e : EntryNo) : StoresInOrder (s.evaluate e) := by
  unfold State.evaluate
  split
  · exact h
  next x hx =>
    have hv := (h.entries e x hx).survey
    split
    · exact h.mapSurvey e fun _ hv => hv.resetLead
    · simp only
      have hcand := x.survey.countLead_candidates (s.bestCandidate e 0) s.margin
      split
      · exact (h.mapSurvey e fun _ _ => ⟨hcand ▸ hv.1, Nat.zero_le _⟩).raiseRequest e _
      next hlt =>
        have hdwell : s.dwell ≤ 16 := h.dwell_le
        exact h.mapSurvey e fun _ _ => ⟨hcand ▸ hv.1, by omega⟩

theorem StoresInOrder.considerServed (h : StoresInOrder s) (e : EntryNo) (here : Bool) : StoresInOrder (s.considerServed e here) := by
  unfold State.considerServed
  simp only
  split
  · exact ((h.considerDrain e).considerFade e).evaluate e
  · exact (h.considerDrain e).evaluate e

theorem StoresInOrder.digestSighting (h : StoresInOrder s) (e : EntryNo) (a : AntennaNo) (q : Byte) :
    StoresInOrder (s.digestSighting e a q) := by
  unfold State.digestSighting
  split
  · exact h
  next x _ =>
    have hm : StoresInOrder (if x.servedAt a then s.mapSurvey e (·.sampleServing q s.smoothing)
        else s.mapSurvey e (·.update a q s.smoothing s.candidateLifetime)) := by
      split
      · exact h.mapSurvey e fun _ hv => hv.sampleServing q _
      · exact h.mapSurvey e fun _ hv => hv.update a q _ _
    split
    · exact h
    · simp only
      split
      · exact hm.considerServed e _
      · exact hm.considerEvacuation e
      all_goals exact hm

theorem StoresInOrder.takeSighting (h : StoresInOrder s) (a : AntennaNo) (f : SightingForm) : StoresInOrder (s.takeSighting a f) := by
  cases f with
  | compact slot q =>
    rw [State.takeSighting]
    split
    · exact h.latchStray
    · exact h.digestSighting _ _ _
  | extended id q =>
    rw [State.takeSighting]
    split
    · exact h
    · exact h.digestSighting _ _ _

/-! ### Seeks (R72 to R77) -/

theorem StoresInOrder.hearStranger (h : StoresInOrder s) (id : BeltpackId) (a : AntennaNo) (q : Byte) :
    StoresInOrder (s.hearStranger id a q) := by
  obtain ⟨hlen, hnodup⟩ := h.strangers
  unfold State.hearStranger
  split
  · exact h
  next hno =>
    simp only
    generalize hk : (if s.strangers.length < Config.strangerPlaces then s.strangers else s.strangers.drop 1) = kept
    have hsub : kept.Sublist s.strangers := by
      rw [← hk]; split
      · exact .refl _
      · exact List.drop_sublist 1 _
    have hkept : kept.length ≤ 7 := by
      rw [← hk]; split
      next hlt => exact Nat.le_of_lt_succ hlt
      next => rw [List.length_drop]; omega
    have hid : id ∉ kept := fun hm => hno (List.contains_iff_mem.mpr (hsub.subset hm))
    refine StoresInOrder.queueNotice ?_ _
    refine ⟨h.policy, h.entries, h.ids, ⟨?_, ?_⟩, h.queue.of_eq rfl rfl, h.antennas, h.ports, h.stopped⟩
    · simp only [List.length_append, List.length_singleton]; omega
    · exact List.nodup_append.mpr ⟨hnodup.sublist hsub, List.nodup_singleton _, fun k hk j hj => by
        rw [List.mem_singleton.mp hj]; rintro rfl; exact hid hk⟩

theorem StoresInOrder.seekEvacuation (h : StoresInOrder s) (e : EntryNo) (a : AntennaNo) (q : Byte) :
    StoresInOrder (s.seekEvacuation e a q) :=
  StoresInOrder.raiseRequest (h.mapSurvey e fun _ hv => hv.force a q _) _ _

theorem StoresInOrder.offerSeek (h : StoresInOrder s) (c : ContextNo) (a : AntennaNo) : StoresInOrder (s.offerSeek c a) := by
  unfold State.offerSeek
  split
  · exact h
  · split
    · exact (h.mapCtx c _).postSummon c
    · exact h

theorem StoresInOrder.seekEntry (h : StoresInOrder s) (e : EntryNo) (x : Entry) (a : AntennaNo) (q : Byte) :
    StoresInOrder (s.seekEntry e x a q) := by
  unfold State.seekEntry
  split
  · exact (h.offerSeek _ a).digestSighting e a q
  · exact h.raiseRequest _ _
  · exact h.seekEvacuation e a q
  · split
    · exact h.digestSighting e a q
    · exact ((h.releaseSlot _ _).loseServing e _).seekEvacuation e a q
  · exact h.digestSighting e a q

theorem StoresInOrder.takeSeek (h : StoresInOrder s) (a : AntennaNo) (id : BeltpackId) (q : Byte) :
    StoresInOrder (s.takeSeek a id q) := by
  unfold State.takeSeek
  split
  · exact h.latchStray
  · split
    · exact h.hearStranger id a q
    · split
      · exact h
      · split
        · exact h
        · exact h.seekEntry _ _ a q

/-! ### Arrivals and Sign-offs (R100, R109) -/

theorem StoresInOrder.takeTargetArrival (h : StoresInOrder s) (c : ContextNo) (y : Context) (a : AntennaNo) (sl : SlotNo) :
    StoresInOrder (s.takeTargetArrival c y a sl) := by
  have hs := (h.mapCtx c fun y => { y with arrivalTimer := none }).stopAwaiting c
  unfold State.takeTargetArrival
  simp only
  split
  · exact hs
  next z _ =>
    have hm := (hs.setSlot a sl (.occupied y.entry)).mapEntry y.entry (f := (·.arrive a sl (y.source.map (·.1))))
      (fun _ _ hx => hx.arrive a sl _) fun _ => rfl
    have hn : StoresInOrder (State.notifyAttached (((s.mapCtx c fun y => { y with arrivalTimer := none }).stopAwaiting c).setSlot
        a sl (.occupied y.entry) |>.mapEntry y.entry (·.arrive a sl (y.source.map (·.1)))) y.entry z a sl) := by
      rw [State.notifyAttached_eq]; exact hm.of_kept
    split
    · exact (hn.mapCtx c _).releaseSlot _ _
    · exact hn.complete c

theorem StoresInOrder.takeArrival (h : StoresInOrder s) (a : AntennaNo) (id : BeltpackId) (slot : Byte) :
    StoresInOrder (s.takeArrival a id slot) := by
  unfold State.takeArrival
  split
  · split
    · exact h.latchStray
    · unfold State.offerArrival
      split
      · exact h.takeTargetArrival _ _ _ _
      · split
        · exact h.dispose _ _
        · exact h.latchStray
  · exact h.latchStray

theorem StoresInOrder.takeSignOff (h : StoresInOrder s) (id : BeltpackId) : StoresInOrder (s.takeSignOff id) := by
  unfold State.takeSignOff
  split
  · exact h
  · split
    · exact h
    next x _ =>
      have hs : StoresInOrder (match x.context with
          | none => s
          | some c => s.signOffTransaction c) := by
        split
        · exact h
        · exact (h.giveUpAttempt _).putCtx _ _
      simp only
      split
      · exact (hs.releaseAt x.serving).removeRequest _
      · exact ((hs.releaseAt x.serving).removeRequest _).detachWith _ _

theorem StoresInOrder.taken (h : StoresInOrder s) (r : Report) (a : AntennaNo) : StoresInOrder (r.taken a s) := by
  cases r with
  | sighting f => exact h.takeSighting a f
  | seek id q => exact h.takeSeek a id q
  | arrival id slot => exact h.takeArrival a id slot
  | signOff id => exact h.takeSignOff id

theorem StoresInOrder.takeReport (h : StoresInOrder s) (a : AntennaNo) (r : Report) : StoresInOrder (s.takeReport a r) := by
  by_cases hl : (s.ant a).link = .absent
  · rw [State.takeReport_absent hl]; exact h
  · rw [State.takeReport_delivered hl]; exact (h.taken r a).settle

/-! ### Lines -/

theorem StoresInOrder.setReceiver (h : StoresInOrder s) (a : AntennaNo) (r : TrunkReceiver) :
    StoresInOrder (s.mapPort a fun p => { p with receiver := r }) :=
  h.mapPort a (fun hp => ⟨hp.fifo, hp.waiting⟩) fun _ hs => hs

theorem StoresInOrder.fromLine (h : StoresInOrder s) (a : AntennaNo) {f : State → State}
    (hf : ∀ u, StoresInOrder u → StoresInOrder (f u)) : StoresInOrder (s.fromLine a f) := by
  unfold State.fromLine
  split
  · exact hf _ (h.setReceiver a _)
  · exact h

theorem StoresInOrder.takeBadFrame (h : StoresInOrder s) (a : AntennaNo) : StoresInOrder (s.takeBadFrame a) :=
  h.fromLine a fun _ hu => hu.mapLink _

theorem StoresInOrder.lineReply (h : StoresInOrder s) (a : AntennaNo) (r : PortReply) : StoresInOrder (s.lineReply a r) :=
  h.fromLine a fun _ hu => hu.takeReply a r

theorem StoresInOrder.lineReport (h : StoresInOrder s) (a : AntennaNo) (r : Report) : StoresInOrder (s.lineReport a r) :=
  h.fromLine a fun _ hu => hu.takeReport a r

theorem StoresInOrder.takeTrunkByte (h : StoresInOrder s) (a : AntennaNo) (b : Byte) : StoresInOrder (s.takeTrunkByte a b) := by
  unfold State.takeTrunkByte
  split
  · exact h
  · split
    · split
      · exact h.setReceiver a _
      · exact h
    · unfold State.takeTrunkFrameByte
      simp only
      split
      · split
        · exact h.takeBadFrame a
        · split
          · unfold State.endReceivedFrame
            split
            · exact h.takeBadFrame a
            · split
              · exact h.lineReply a _
              · exact h.lineReport a _
              · exact h.takeBadFrame a
          · exact h.setReceiver a _
      · exact h.setReceiver a _

/-! ### Timers -/

theorem StoresInOrder.expireArrivalTimer (h : StoresInOrder s) (c : ContextNo) : StoresInOrder (s.expireArrivalTimer c) := by
  unfold State.expireArrivalTimer
  split
  · exact h
  · split
    · exact (h.dispose _ _).settle
    · exact h

theorem StoresInOrder.expireLostWindow (h : StoresInOrder s) (e : EntryNo) : StoresInOrder (s.expireLostWindow e) := by
  unfold State.expireLostWindow
  split
  · exact h
  · split
    · exact h
    · split
      · refine StoresInOrder.mapMarks h e ?_
        exact fun _ => ⟨rfl, rfl, rfl, rfl⟩
      · exact (h.removeRequest e).detachWith e _

/-- The requests changed in nothing that the key, the entry or the order reads. -/
theorem QueueInOrder.map (h : QueueInOrder s) {f : Request → Request}
    (hf : ∀ r, (f r).cause = r.cause ∧ (f r).cls = r.cls ∧ (f r).order = r.order) :
    QueueInOrder { s with queue := s.queue.map f } where
  length := by simpa using h.length
  key := List.pairwise_map.mpr (h.key.imp fun {r r'} hk => by
    obtain ⟨h1, h2, h3⟩ := hf r
    obtain ⟨k1, k2, k3⟩ := hf r'
    simpa only [KeyBefore, h1, h2, h3, k1, k2, k3] using hk)
  orders := List.pairwise_map.mpr (h.orders.imp fun {r r'} hk => by rwa [(hf r).2.2, (hf r').2.2])
  past := by
    intro r hr
    obtain ⟨r', hr', rfl⟩ := List.mem_map.mp hr
    exact (hf r').2.2 ▸ h.past r' hr'

theorem Request.release_key (r : Request) (e : EntryNo) :
    (r.release e).cause = r.cause ∧ (r.release e).cls = r.cls ∧ (r.release e).order = r.order := by
  unfold Request.release
  split <;> exact ⟨rfl, rfl, rfl⟩

theorem Port.expireProbeTimer_still {p : Port} (h : p.Still) (ms : Nat) : p.expireProbeTimer ms = p := by
  rw [Port.expireProbeTimer, h.2.2]

theorem PortInOrder.expireProbeTimer {p : Port} (h : PortInOrder p) (ms : Nat) : PortInOrder (p.expireProbeTimer ms) := by
  unfold Port.expireProbeTimer
  split
  · exact h
  · exact ⟨h.fifo, h.waiting⟩

theorem Port.Still.placeWaiting {p : Port} (h : p.Still) : p.placeWaiting.Still := by
  unfold Port.placeWaiting
  split
  · exact h
  · split <;> exact h

/-! ### The events -/

theorem StoresInOrder.wake (h : StoresInOrder s) : StoresInOrder s.wake := h.mapLink _

/-- Every event keeps the stores in order. -/
theorem StoresInOrder.event {i : Instr} (hi : isEvent i = true) (h : StoresInOrder s.wake) (hx : exec i s = .next t) :
    StoresInOrder t := by
  have of {u : State} (he : exec i s = .next u) (hu : StoresInOrder u) : StoresInOrder t := by
    rw [he] at hx; injection hx with hx; exact hx ▸ hu
  cases i with
  | badTrunkFrame a => exact of rfl (h.takeBadFrame a)
  | trunkGapExpiry a =>
    refine of rfl ?_
    simp only
    split
    · exact h
    · exact h.takeBadFrame a
  | status a m f => exact of rfl (h.lineReply a _)
  | ack a k id sl => exact of rfl (h.lineReply a _)
  | refuse a k id sl r => exact of rfl (h.lineReply a _)
  | sighting a f => exact of rfl (h.lineReport a _)
  | seek a id q => exact of rfl (h.lineReport a _)
  | arrival a id sl => exact of rfl (h.lineReport a _)
  | signOff a id => exact of rfl (h.lineReport a _)
  | probeTimerExpiry a =>
    refine of rfl (StoresInOrder.beginExchange (StoresInOrder.mapPort h a ?_ ?_) a)
    · exact fun hp => hp.expireProbeTimer _
    · exact fun _ hs => by rw [Port.expireProbeTimer_still hs]; exact hs
  | probeMiss a =>
    refine of rfl ?_
    simp only
    split
    next hp =>
      rw [Bool.and_eq_true] at hp
      exact (h.endExchange a).missProbe (h.running_of_inFlight (Port.inFlight_of_probe hp.1)) a
    next => exact h
  | orderTimeout a =>
    refine of rfl ?_
    simp only
    split
    · split
      · exact (h.endExchange a).timeOutOrder a _
      · exact h
    · exact h
  | loopbackReply a =>
    refine of rfl ?_
    simp only
    split
    · exact h.takeReply a _
    · exact h
  | beginExchange a => exact of rfl (h.beginExchange a)
  | waitingPosterPlaced a =>
    refine of rfl (StoresInOrder.beginExchange (StoresInOrder.mapPort h a ?_ ?_) a)
    · exact fun hp => hp.placeWaiting
    · exact fun _ hs => hs.placeWaiting
  | arrivalTimerExpiry c => exact of rfl (h.expireArrivalTimer c)
  | lostWindowExpiry e => exact of rfl (h.expireLostWindow e)
  | settleTimerExpiry e =>
    refine of rfl (StoresInOrder.mapMarks h e ?_)
    exact fun _ => ⟨rfl, rfl, rfl, rfl⟩
  | candidateLifetimeExpiry e a =>
    refine of rfl (StoresInOrder.mapSurvey h e ?_)
    intro v hv
    split
    · exact hv.remove a
    · exact hv
  | notBeforeExpiry e =>
    exact of rfl (h.setQueue (h.queue.map fun r => r.release_key e) rfl).settle
  | dispatch => exact of rfl h.settle
  | trunkRxByte a b => exact of rfl (h.takeTrunkByte a b)
  | _ => cases hi

end Sys2Proof.Machine
end

section
/-! Every step keeps the stores in order, part four: the Host Link, and a host command from its frame to its reply. -/

namespace Sys2Proof.Machine

variable {s t u : State} {l l' : HostLink} {code : Byte}

/-! ### The bounds of the link (R162, R170, R171) -/

/-- What `LinkInOrder` asks of the notices, the reply list and the selection. -/
structure LinkBounded (l : HostLink) : Prop where
  notices : l.notices.length ≤ 32
  replies : l.replies.length ≤ 16
  held : l.selection.getLsbD 3 = true
  eleven : l.selection.toNat < 2 ^ 11

/-- A command in execution has its reply, and a transmitter that is idle has yet to begin it. -/
def HostLink.Answered (l : HostLink) : Prop :=
  ∀ x, l.execution = some x → x.reply ≠ none ∧ (l.transmitter = none → x.begun = false)

theorem LinkInOrder.bounded (h : LinkInOrder l) : LinkBounded l := ⟨h.notices, h.replies, h.held, h.eleven⟩

theorem LinkInOrder.answered (h : LinkInOrder l) : l.Answered := fun x hx =>
  ⟨(h.busy x hx).1, fun ht => absurd ht (h.busy x hx).2⟩

/-- The lists of a link and its selection are as bounded as before. -/
theorem LinkBounded.of_le (h : LinkBounded l) (hn : l'.notices.length ≤ l.notices.length)
    (hr : l'.replies.length ≤ l.replies.length) (hs : l'.selection = l.selection) : LinkBounded l' :=
  ⟨hn.trans h.notices, hr.trans h.replies, hs ▸ h.held, hs ▸ h.eleven⟩

/-- The choice of the next frame takes at most one notice or one refusal. -/
theorem HostLink.choose_lists (l : HostLink) :
    l.choose.notices.length ≤ l.notices.length ∧ l.choose.replies.length ≤ l.replies.length := by
  unfold HostLink.choose HostLink.beginReply HostLink.beginNotice; grind

theorem LinkBounded.choose (h : LinkBounded l) : LinkBounded l.choose :=
  h.of_le l.choose_lists.1 l.choose_lists.2 l.choose_selection

/-- The idle transmitter begins the answer or a refusal before it, while a command is in execution. -/
theorem HostLink.Answered.choose_busy (h : l.Answered) {x : Execution} (hx : l.choose.execution = some x) :
    x.reply ≠ none ∧ l.choose.transmitter ≠ none := by
  cases ht : l.transmitter with
  | some f =>
    have hc : l.choose = l := by unfold HostLink.choose; rw [ht]
    rw [hc] at hx ⊢
    exact ⟨(h x hx).1, by rw [ht]; nofun⟩
  | none =>
    cases hl : l.execution with
    | none => rw [HostLink.choose_execution_none hl] at hx; cases hx
    | some y =>
      obtain ⟨hy, hbegun⟩ := h y hl
      obtain ⟨f, hf⟩ := Option.ne_none_iff_exists'.mp hy
      have hreply : l.beginReply y = { l with transmitter := some f, execution := some { y with begun := true } } := by
        unfold HostLink.beginReply; rw [hf, hbegun ht]
      have hc : ∃ y' g, y'.reply = some f ∧ l.choose.execution = some y' ∧ l.choose.transmitter = some g := by
        by_cases hturn : y.ahead = 0 ∨ l.replies = []
        · rw [HostLink.choose_turn ht hl hturn, hreply]
          exact ⟨{ y with begun := true }, f, hf, rfl, rfl⟩
        · rw [not_or] at hturn
          obtain ⟨r, rs, hrs⟩ := List.exists_cons_of_ne_nil hturn.2
          rw [HostLink.choose_refusal_ahead ht hl (Nat.pos_of_ne_zero hturn.1) hrs]
          exact ⟨{ y with ahead := y.ahead - 1 }, r, hf, rfl, rfl⟩
      obtain ⟨y', g, hy', hx', ht'⟩ := hc
      obtain rfl := Option.some.inj (hx'.symm.trans hx)
      rw [hy', ht']
      exact ⟨nofun, nofun⟩

theorem LinkBounded.choose_inOrder (h : LinkBounded l) (hl : l.Answered) : LinkInOrder l.choose :=
  ⟨h.choose.notices, h.choose.replies, h.choose.held, h.choose.eleven, fun _ hx => hl.choose_busy hx⟩

theorem LinkInOrder.choose (h : LinkInOrder l) : LinkInOrder l.choose := h.bounded.choose_inOrder h.answered

/-- A link with other settings, flags and fewer notices. -/
theorem LinkInOrder.of_eq (h : LinkInOrder l) (hn : l'.notices = l.notices) (hr : l'.replies = l.replies)
    (hs : l'.selection = l.selection) (hx : l'.execution = l.execution) (ht : l'.transmitter = l.transmitter) : LinkInOrder l' := by
  obtain ⟨h1, h2, h3, h4⟩ := h.bounded.of_le (l' := l') (by rw [hn]) (by rw [hr]) hs
  exact ⟨h1, h2, h3, h4, fun x hx' => by rw [ht]; exact h.busy x (hx ▸ hx')⟩

theorem LinkBounded.place (h : LinkBounded l) (n : Notice) (hlt : l.notices.length < 32) :
    LinkBounded { l with notices := l.notices ++ [n] } :=
  ⟨by simp only [List.length_append, List.length_singleton]; omega, h.replies, h.held, h.eleven⟩

theorem LinkBounded.queueNotice (h : LinkBounded l) (n : Notice) : LinkBounded (l.queueNotice n) := by
  unfold HostLink.queueNotice
  split
  · exact h
  · split
    next hlt => exact (h.place n hlt).choose
    next => exact ⟨h.notices, h.replies, h.held, h.eleven⟩

theorem LinkInOrder.queueNotice (h : LinkInOrder l) (n : Notice) : LinkInOrder (l.queueNotice n) := by
  unfold HostLink.queueNotice
  split
  · exact h
  · split
    next hlt => exact (h.bounded.place n hlt).choose_inOrder h.answered
    next => exact h.of_eq rfl rfl rfl rfl rfl

theorem LinkInOrder.linkWork (h : LinkInOrder l) (hw : LinkWork l l') : LinkInOrder l' := by
  induction hw with
  | refl => exact h
  | notice _ n ih => exact ih.queueNotice n
  | latch _ fl k ih => exact ih.of_eq rfl rfl rfl rfl rfl

/-! ### Refusals and the receiver (R164 to R166, R169) -/

theorem LinkBounded.refuseFrame (h : LinkBounded l) (code : Byte) (r : RefusalCode) : LinkBounded (l.refuseFrame code r) := by
  have hlen := h.replies
  rw [HostLink.refuseFrame_eq]
  refine ⟨h.notices, ?_, h.held, h.eleven⟩
  simp only
  split
  · simp only [List.length_append, List.length_singleton]; omega
  · exact h.replies

theorem HostLink.refuseFrame_execution (l : HostLink) (code : Byte) (r : RefusalCode) :
    (l.refuseFrame code r).execution = l.execution ∧ (l.refuseFrame code r).transmitter = l.transmitter := by
  rw [HostLink.refuseFrame_eq]; exact ⟨rfl, rfl⟩

theorem LinkInOrder.refuseFrame (h : LinkInOrder l) (code : Byte) (r : RefusalCode) : LinkInOrder (l.refuseFrame code r) := by
  obtain ⟨hn, hr, hs, hn'⟩ := h.bounded.refuseFrame code r
  obtain ⟨hx, ht⟩ := l.refuseFrame_execution code r
  exact ⟨hn, hr, hs, hn', fun x hx' => by rw [ht]; exact h.busy x (hx ▸ hx')⟩

theorem InOrder.mapLink (h : InOrder s) {f : HostLink → HostLink} (hf : LinkInOrder (f s.link)) : InOrder (s.mapLink f) :=
  inOrder_iff.mpr ⟨hf, (inOrder_iff.mp h).2.mapLink f⟩

theorem InOrder.wake (h : InOrder s) : InOrder s.wake := h.mapLink h.link.choose

theorem InOrder.endHostFrame (h : InOrder s) : InOrder s.endHostFrame := h.mapLink (h.link.of_eq rfl rfl rfl rfl rfl)

theorem InOrder.refuseHostFrame (h : InOrder s) (code : Byte) (r : RefusalCode) : InOrder (s.refuseHostFrame code r) :=
  (h.endHostFrame.mapLink (h.endHostFrame.link.refuseFrame code r)).wake

theorem HostLink.setRate_answered (hx : l.execution = none) (r : LinkRate) : (l.setRate r).execution = none := by
  unfold HostLink.setRate
  simp only
  split
  · exact hx
  · exact (HostLink.refuseFrame_execution _ _ _).1.trans hx

theorem LinkBounded.setRate (h : LinkBounded l) (r : LinkRate) : LinkBounded (l.setRate r) := by
  unfold HostLink.setRate
  simp only
  split
  · exact ⟨h.notices, h.replies, h.held, h.eleven⟩
  · refine LinkBounded.refuseFrame ?_ _ _
    exact ⟨h.notices, h.replies, h.held, h.eleven⟩

/-- The end of a transmission leaves a link whose idle transmitter has yet to begin the answer, if there is one. -/
theorem LinkInOrder.finishFrame (h : LinkInOrder l) : LinkBounded l.finishFrame ∧ l.finishFrame.Answered := by
  have hb : LinkBounded { l with transmitter := none } := ⟨h.notices, h.replies, h.held, h.eleven⟩
  have none_answered {k : HostLink} (hk : k.execution = none) : k.Answered := fun x hx => by rw [hk] at hx; cases hx
  unfold HostLink.finishFrame
  split
  · exact ⟨h.bounded, h.answered⟩
  · simp only
    split
    next x hx =>
      split
      · have hb' : LinkBounded { l with transmitter := none, execution := none } := ⟨h.notices, h.replies, h.held, h.eleven⟩
        split
        · exact ⟨hb', none_answered rfl⟩
        · exact ⟨hb'.setRate _, none_answered (HostLink.setRate_answered rfl _)⟩
      next hbegun =>
        refine ⟨hb, fun y hy => ?_⟩
        obtain rfl : x = y := Option.some.inj (hx.symm.trans hy)
        exact ⟨(h.busy x hx).1, fun _ => Bool.eq_false_iff.mpr hbegun⟩
    next hx => exact ⟨hb, none_answered hx⟩

/-! ### A command at work -/

/-- What a command's own work does to the link: its reply is not built, and the bounds are kept. -/
def CommandLink (l l' : HostLink) : Prop :=
  ∀ code, LinkBounded l → InCommand l code → LinkBounded l' ∧ InCommand l' code

theorem LinkWork.commandLink (hw : LinkWork l l') : CommandLink l l' := by
  intro code hb hc
  induction hw with
  | refl => exact ⟨hb, hc⟩
  | notice _ n ih => exact ⟨ih.1.queueNotice n, ih.2.queueNotice_inCommand n⟩
  | latch _ fl k ih => exact ⟨⟨ih.1.notices, ih.1.replies, ih.1.held, ih.1.eleven⟩, ⟨ih.2.execution, ih.2.idle⟩⟩

/-- The bodies of host commands that keep the stores in order. -/
def BodyInOrder (body : State → CommandReply) : Prop :=
  ∀ s p t, StoresInOrder s → body s = .answer p t → StoresInOrder t ∧ CommandLink s.link t.link

/-- The reply at the end of a command's work completes the link. -/
theorem StoresInOrder.reply (h : StoresInOrder t) (hb : LinkBounded t.link) (hc : InCommand t.link code) (f : HostFrame) :
    InOrder (t.reply f) := by
  refine inOrder_iff.mpr ⟨?_, (h.mapLink _).wake⟩
  obtain ⟨x, -, -, hl⟩ := hc.reply_link f
  rw [hl]
  refine ⟨hb.notices, hb.replies, hb.held, hb.eleven, fun y hy => ?_⟩
  obtain rfl := Option.some.inj hy
  exact ⟨nofun, nofun⟩

/-- An idle transmitter with no command in execution has no refusal left to send. -/
def State.Chosen (s : State) : Prop := s.link.execution = none → s.link.transmitter = none → s.link.replies = []

theorem State.wake_chosen (s : State) : s.wake.Chosen := fun hx ht => by
  have hx' : s.link.choose.execution = none := hx
  have ht' : s.link.choose.transmitter = none := ht
  have hn : s.link.execution = none := by
    revert hx' ht'; unfold HostLink.choose HostLink.beginReply HostLink.beginNotice; grind
  exact HostLink.choose_idle hn ht'

theorem InOrder.runCommand (h : InOrder s) (hs : s.Chosen) {body : State → CommandReply} (hbody : BodyInOrder body)
    (code : Byte) : InOrder (s.runCommand code body) := by
  unfold State.runCommand
  split
  · exact h.refuseHostFrame code _
  next hx =>
    obtain ⟨hl, hst⟩ := inOrder_iff.mp h
    have ha : StoresInOrder (s.accept code) := (hst.mapLink _).mapLink _
    have hb : LinkBounded (s.accept code).link := ⟨hl.notices, hl.replies, hl.held, hl.eleven⟩
    have hc : InCommand (s.accept code).link code := ⟨⟨none, _, rfl⟩, fun ht => hs hx ht⟩
    cases hr : body (s.accept code) with
    | refuse r => exact ha.reply hb hc _
    | answer p t =>
      obtain ⟨ht, hlink⟩ := hbody _ p t ha hr
      obtain ⟨hb', hc'⟩ := hlink code hb hc
      exact ht.reply hb' hc' _

end Sys2Proof.Machine
end

section
/-! Every step keeps the stores in order, part five: the body of every host command. -/

namespace Sys2Proof.Machine

variable {s t u : State} {a : AntennaNo} {e : EntryNo} {x : Entry} {body : State → CommandReply}

/-! ### Replies -/

/-- A reply that leaves the stores in order and the command at work. -/
inductive ReplyInOrder (s : State) : CommandReply → Prop
  | refuse (r : RefusalCode) : ReplyInOrder s (.refuse r)
  | leaves {p : List Byte} {t : State} (h : StoresInOrder t) (hl : CommandLink s.link t.link) : ReplyInOrder s (.answer p t)

theorem bodyInOrder_of (h : ∀ s, StoresInOrder s → ReplyInOrder s (body s)) : BodyInOrder body := fun s p t hs hb => by
  have hr := h s hs
  rw [hb] at hr
  cases hr with
  | leaves ht hl => exact ⟨ht, hl⟩

theorem BodyInOrder.replyInOrder (h : BodyInOrder body) (hs : StoresInOrder s) : ReplyInOrder s (body s) := by
  cases hb : body s with
  | refuse r => exact .refuse r
  | answer p t =>
    obtain ⟨ht, hl⟩ := h s p t hs hb
    exact .leaves ht hl

theorem StoresInOrder.answer (h : StoresInOrder t) (hw : LinkWork s.link t.link) (p : List Byte) :
    ReplyInOrder s (.answer p t) := .leaves h hw.commandLink

/-- An answer with the link left alone. -/
theorem StoresInOrder.answerKept (h : StoresInOrder t) (p : List Byte) (hl : t.link = s.link := by rfl) :
    ReplyInOrder s (.answer p t) := h.answer (hl ▸ .refl) p

theorem BodyInOrder.withAntenna {k : AntennaNo → State → CommandReply} (h : ∀ a, BodyInOrder (k a)) (b : Byte) :
    BodyInOrder (withAntenna b k) := bodyInOrder_of fun s hs => by
  unfold Sys2Proof.Machine.withAntenna
  split
  · exact .refuse _
  · exact (h _).replyInOrder hs

theorem BodyInOrder.withBeltpack {α : Type} {values : Option α} {k : EntryNo → Entry → α → State → CommandReply}
    (h : ∀ e x v s, StoresInOrder s → s.entry e = some x → values = some v → ReplyInOrder s (k e x v s)) (ref : BeltpackRef)
    (held : Bool) : BodyInOrder (withBeltpack ref values held k) := bodyInOrder_of fun s hs => by
  unfold Sys2Proof.Machine.withBeltpack
  split
  · exact .refuse _
  · split
    · exact .refuse _
    next x hx =>
      split
      · exact .refuse _
      next v =>
        split
        · exact .refuse _
        · exact h _ x v s hs hx rfl

/-! ### Changed antenna records -/

theorem State.setChangeFlag_work (s : State) (a : AntennaNo) : LinkWork s.link (s.setChangeFlag a).link := by
  unfold State.setChangeFlag
  simp only
  split
  · exact .refl
  · exact .notice (.latch .refl _ _) _

theorem State.changeAntenna_work (s : State) (a : AntennaNo) (f : Antenna → Antenna) :
    LinkWork s.link (s.changeAntenna a f).link := by
  unfold State.changeAntenna
  simp only
  split
  · exact .refl
  · exact State.setChangeFlag_work (s.mapAnt a f) a

theorem StoresInOrder.serviceAnswer (h : StoresInOrder t) (hw : LinkWork s.link t.link) (a : AntennaNo) :
    ReplyInOrder s (serviceAnswer a t) := h.answer hw _

/-- A change of the admin state. -/
theorem StoresInOrder.setAdmin (h : StoresInOrder s) (a : AntennaNo) (m : AdminState) :
    StoresInOrder (s.changeAntenna a fun r => { r with admin := m }) :=
  h.changeAntenna a (fun hr => hr) fun hr => (h.stopped hr a).1

/-! ### The Host Link's commands -/

theorem identifyBody_inOrder : BodyInOrder identifyBody := bodyInOrder_of fun _ h => h.answerKept _

theorem readDomainStatusBody_inOrder : BodyInOrder readDomainStatusBody := bodyInOrder_of fun _ h =>
  (h.mapLink _).answer (.latch .refl _ _) _

theorem setLinkRateBody_inOrder (b : Byte) : BodyInOrder (setLinkRateBody b) := bodyInOrder_of fun s h => by
  unfold setLinkRateBody
  split
  · exact .refuse _
  next rate _ =>
    split
    · exact h.answerKept _
    · refine .leaves (h.mapLink _) fun code hb hc => ?_
      obtain ⟨⟨r, n, hx⟩, hi⟩ := hc
      refine ⟨⟨hb.notices, hb.replies, hb.held, hb.eleven⟩, ⟨some rate, n, ?_⟩, hi⟩
      simp only [State.mapLink_link, hx, Option.map_some]

theorem heldSelection_bounds {sel : BitVec 16} (h : sel.toNat < 2 ^ 11) :
    (heldSelection sel).getLsbD 3 = true ∧ (heldSelection sel).toNat < 2 ^ 11 := by
  refine ⟨by rw [heldSelection_bit sel 3 (by decide)]; simp, ?_⟩
  rw [heldSelection, BitVec.toNat_or]
  exact Nat.or_lt_two_pow h (by decide)

theorem setNoticeModeBody_inOrder (mode : Byte) (sel : BitVec 16) : BodyInOrder (setNoticeModeBody mode sel) :=
  bodyInOrder_of fun s h => by
    unfold setNoticeModeBody
    split
    · exact .refuse _
    · split
      · exact .refuse _
      next hsel =>
        obtain ⟨h3, h11⟩ := heldSelection_bounds (not_not.mp (mt (selection_high_iff sel).mpr hsel))
        exact .leaves (h.mapLink _) fun code hb hc => ⟨⟨hb.notices, hb.replies, h3, h11⟩, hc.execution, hc.idle⟩

theorem fetchNoticeBody_inOrder : BodyInOrder fetchNoticeBody := bodyInOrder_of fun s h => by
  unfold fetchNoticeBody
  split
  · exact .refuse _
  · exact h.answerKept _
  next n ns _ hn =>
    refine .leaves (h.mapLink _) fun code hb hc => ⟨⟨?_, hb.replies, hb.held, hb.eleven⟩, hc.execution, hc.idle⟩
    have := hb.notices
    rw [hn, List.length_cons] at this
    exact Nat.le_of_succ_le this

theorem setPolicyItemBody_inOrder (item field : Byte) : BodyInOrder (setPolicyItemBody item field) :=
  bodyInOrder_of fun s h => by
    unfold setPolicyItemBody
    split
    · exact .refuse _
    next i _ =>
      split
      next hf =>
        refine StoresInOrder.answerKept ?_ _
        refine ⟨fun j lo hi hj => ?_, h.entries, h.ids, h.strangers, h.queue.of_eq rfl rfl, h.antennas, h.ports, h.stopped⟩
        by_cases hij : i = j
        · subst hij
          rw [policyRanges_get] at hj
          have hr : fieldRange i = (lo, hi) := Option.some.inj hj
          rw [hr] at hf
          simpa only [get_set_self] using hf
        · simpa only [get_set_ne _ _ hij] using h.policy j lo hi hj
      next => exact .refuse _

theorem readPolicyBody_inOrder : BodyInOrder readPolicyBody := bodyInOrder_of fun _ h => h.answerKept _

/-! ### The trunk and the antennas -/

theorem StoresInOrder.startPort (h : StoresInOrder s) (hr : s.running = true) (a : AntennaNo) : StoresInOrder (s.startPort a) :=
  StoresInOrder.beginExchange (h.mapPort a (fun hp => ⟨hp.fifo, hp.waiting⟩) fun hr' => absurd (hr.symm.trans hr') (by decide)) a

theorem StoresInOrder.startPorts (as : List AntennaNo) (h : StoresInOrder s) (hr : s.running = true) :
    StoresInOrder (as.foldl State.startPort s) ∧ (as.foldl State.startPort s).link = s.link := by
  induction as generalizing s with
  | nil => exact ⟨h, rfl⟩
  | cons a as ih => exact ih (h.startPort hr a) hr

theorem trunkStartBody_inOrder : BodyInOrder trunkStartBody := bodyInOrder_of fun s h => by
  unfold trunkStartBody
  split
  · exact .refuse _
  · have hs : StoresInOrder { s with running := true, antennas := s.antennas.map fun r => { r with probeMisses := 0, orderMisses := 0 } } := by
      refine ⟨h.policy, h.entries, h.ids, h.strangers, h.queue.of_eq rfl rfl, fun a => ?_, h.ports, nofun⟩
      have := (h.antennas a).2.2
      simp only [State.ant, get_map]
      exact ⟨Nat.zero_le _, Nat.zero_le _, this⟩
    obtain ⟨ht, hl⟩ := hs.startPorts (List.finRange 24) rfl
    exact ht.answerKept _ hl

theorem StoresInOrder.stopTrunk (h : StoresInOrder s) : StoresInOrder s.stopTrunk := by
  have hentry (e : EntryNo) : s.stopTrunk.entry e = (s.entry e).map Entry.offAir := get_map _ _ e
  have hant (a : AntennaNo) : s.stopTrunk.ant a = (s.ant a).stop := get_map _ _ a
  have hport (a : AntennaNo) : s.stopTrunk.port a = {} := get_map s.ports _ a
  refine ⟨h.policy, fun e x hx => ?_, fun e e' x y hx hy hid => ?_, h.strangers,
    ⟨Nat.zero_le _, .nil, .nil, fun r hr => absurd hr List.not_mem_nil⟩, fun a => ?_, fun a => ?_, fun _ a => ?_⟩
  · rw [hentry, Option.map_eq_some_iff] at hx
    obtain ⟨x', hx', rfl⟩ := hx
    exact (h.entries e x' hx').offAir
  · rw [hentry, Option.map_eq_some_iff] at hx hy
    obtain ⟨x', hx', rfl⟩ := hx
    obtain ⟨y', hy', rfl⟩ := hy
    exact h.ids e e' x' y' hx' hy' hid
  · rw [hant]; exact ⟨Nat.zero_le _, Nat.zero_le _, LanesApart.empty⟩
  · rw [hport]; exact ⟨Nat.zero_le _, fun hw => absurd rfl hw⟩
  · rw [hant, hport]; exact ⟨rfl, rfl, rfl, rfl⟩

theorem trunkStopBody_inOrder : BodyInOrder trunkStopBody := bodyInOrder_of fun s h => by
  unfold trunkStopBody
  split
  · exact .refuse _
  · exact (h.stopTrunk.queueNotice _).answer (s := s) (.notice .refl _) _

theorem readAntennaBody_inOrder (b : Byte) : BodyInOrder (readAntennaBody b) :=
  .withAntenna (fun a => bodyInOrder_of fun s h => by
    have hm : StoresInOrder (s.mapAnt a fun r => { r with changed := false }) := h.mapAnt a (fun hr => hr) fun _ => rfl
    exact hm.answerKept _) b

theorem inServiceBody_inOrder (b : Byte) : BodyInOrder (inServiceBody b) :=
  .withAntenna (fun a => bodyInOrder_of fun s h => (h.setAdmin a .inService).serviceAnswer (s.changeAntenna_work a _) a) b

theorem drainBody_inOrder (b : Byte) : BodyInOrder (drainBody b) :=
  .withAntenna (fun a => bodyInOrder_of fun s h => by
    split
    · exact .refuse _
    · exact ((h.setAdmin a .outOfService).queueNotice _).serviceAnswer (.notice (s.changeAntenna_work a _) _) a
    · exact (h.setAdmin a .draining).serviceAnswer (s.changeAntenna_work a _) a) b

theorem outOfServiceBody_inOrder (b : Byte) : BodyInOrder (outOfServiceBody b) :=
  .withAntenna (fun a => bodyInOrder_of fun s h => by
    split
    · exact h.serviceAnswer .refl a
    · split
      · exact (h.setAdmin a .outOfService).serviceAnswer (s.changeAntenna_work a _) a
      · exact .refuse _) b

theorem forceOutBody_inOrder (b : Byte) : BodyInOrder (forceOutBody b) :=
  .withAntenna (fun a => bodyInOrder_of fun s h => by
    split
    · exact h.serviceAnswer .refl a
    · have hk := (s.changeAndSweep_hostKept a none (f := fun r => { r with admin := .outOfService }) rfl rfl).trans
        (State.settle_settled _).toWorked.hostKept
      exact (h.changeAndSweep a none (fun hr => hr) fun hr => (h.stopped hr a).1).settle.serviceAnswer hk.link a) b

theorem clearAntennaFaultBody_inOrder (b : Byte) : BodyInOrder (clearAntennaFaultBody b) :=
  .withAntenna (fun a => bodyInOrder_of fun s h => by
    split
    · exact .refuse _
    · split
      · refine StoresInOrder.answer (h.changeAntenna a ?_ fun hr => (h.stopped hr a).1) (s.changeAntenna_work a _) _
        exact fun ⟨hp, _, hl⟩ => ⟨hp, Nat.zero_le _, hl⟩
      · exact h.answerKept _) b

theorem StoresInOrder.setLoopback (h : StoresInOrder s) (a : AntennaNo) (m : LoopbackMode) : StoresInOrder (s.setLoopback a m) := by
  have hc : StoresInOrder (s.changeAntenna a (·.withLoopback m)) := by
    refine h.changeAntenna a (fun ⟨_, _, hl⟩ => ⟨Nat.zero_le _, Nat.zero_le _, hl⟩) fun hr => ?_
    rw [Antenna.withLoopback, (h.stopped hr a).1]
    exact ite_self _
  have hp : StoresInOrder ((s.changeAntenna a (·.withLoopback m)).mapPort a Port.withLoopback) :=
    hc.mapPort a (fun hp => ⟨hp.fifo, hp.waiting⟩) fun _ hs => by
      refine ⟨?_, hs.2⟩
      rw [Port.withLoopback, hs.1]
      exact ite_self _
  unfold State.setLoopback
  simp only
  split
  · exact (hp.mapPort a (fun _ => ⟨Nat.zero_le _, fun hw => absurd rfl hw⟩) fun _ hs => ⟨rfl, hs.2⟩).mapLanes a
      fun _ => LanesApart.empty
  · exact hp

theorem State.setLoopback_work (s : State) (a : AntennaNo) (m : LoopbackMode) : LinkWork s.link (s.setLoopback a m).link := by
  unfold State.setLoopback
  simp only
  split <;> exact s.changeAntenna_work a (·.withLoopback m)

theorem setPortLoopbackBody_inOrder (b mode : Byte) : BodyInOrder (setPortLoopbackBody b mode) :=
  .withAntenna (fun a => bodyInOrder_of fun s h => by
    split
    · exact .refuse _
    · split
      · exact .refuse _
      · split
        · exact h.answerKept _
        · exact (h.setLoopback a _).answer (s.setLoopback_work a _) _) b

theorem injectBody_inOrder (b : Byte) (k : ReportKind) (fields : List Byte) : BodyInOrder (injectBody b k fields) :=
  .withAntenna (fun a => bodyInOrder_of fun s h => by
    split
    · exact .refuse _
    · split
      · exact .refuse _
      · exact (h.takeReport a _).answer (s.takeReport_hostKept a _).link _) b

/-! ### Beltpacks -/

theorem group?_ne_zero {b : Byte} {g : Option Group} (h : group? b = some g) : g ≠ some 0 := by
  unfold group? at h
  split at h
  · obtain rfl := Option.some.inj h; nofun
  next hb =>
    split at h
    · cases h
    next g' hg =>
      obtain rfl := Option.some.inj h
      intro h0
      obtain rfl := Option.some.inj h0
      exact hb (number?_some hg)

theorem groups?_inOrder {b b' : Byte} {g : Option Group × Option Group} (h : groups? b b' = some g) :
    g.1 ≠ some 0 ∧ g.2 ≠ some 0 ∧ (g.1 = none ∨ g.1 ≠ g.2) := by
  obtain ⟨h1, h2⟩ := groups?_some h
  refine ⟨group?_ne_zero h1, group?_ne_zero h2, ?_⟩
  unfold groups? at h
  rw [h1, h2] at h
  simp only at h
  split at h
  · cases h
  next hne => simpa [Option.isSome_iff_ne_none, or_iff_not_imp_left] using hne

theorem newEntry_inOrder {id : BeltpackId} (hid : invalidId id = false) {b b' : Byte} {g : Option Group × Option Group}
    (hg : groups? b b' = some g) (k : ClassNo) : EntryInOrder (newEntry id k g) where
  id := by simpa [invalidId, newEntry] using hid
  groups := groups?_inOrder hg
  serving := by simp [newEntry]
  candidates := SurveyInOrder.empty.1
  lead := Nat.zero_le _

/-- An entry put in place of none, with an ID that no other has. -/
theorem StoresInOrder.putNew (h : StoresInOrder s) (hx : EntryInOrder x) (hid : UnknownId s x.id) :
    StoresInOrder (s.putEntry e (some x)) := by
  have hentry {e' : EntryNo} {y : Entry} (hy : (s.putEntry e (some x)).entry e' = some y) :
      e' = e ∧ y = x ∨ s.entry e' = some y := by
    by_cases he : e = e'
    · subst he; rw [State.entry_putEntry_self] at hy; exact .inl ⟨rfl, (Option.some.inj hy).symm⟩
    · rw [State.entry_putEntry_ne _ _ he] at hy; exact .inr hy
  refine ⟨h.policy, fun e' y hy => ?_, fun e₁ e₂ y₁ y₂ h₁ h₂ hxy => ?_, h.strangers, h.queue.of_eq rfl rfl, h.antennas, h.ports,
    h.stopped⟩
  · rcases hentry hy with ⟨-, rfl⟩ | hy
    · exact hx
    · exact h.entries e' y hy
  · rcases hentry h₁ with ⟨rfl, rfl⟩ | k₁ <;> rcases hentry h₂ with ⟨he, hy⟩ | k₂
    · exact he.symm
    · exact absurd hxy.symm (hid e₂ y₂ k₂)
    · exact absurd (hy ▸ hxy) (hid e₁ y₁ k₁)
    · exact h.ids e₁ e₂ y₁ y₂ k₁ k₂ hxy

theorem enrolBody_inOrder (id : BeltpackId) (cls ga gb : Byte) : BodyInOrder (enrolBody id cls ga gb) :=
  bodyInOrder_of fun s h => by
    unfold enrolBody
    split
    next k g hid hk hg =>
      split
      · exact .refuse _
      next hfound =>
        split
        · exact .refuse _
        next e he =>
          have hunknown : UnknownId s id := State.findId_none.mp (by simpa using hfound)
          have hput : StoresInOrder (s.putEntry e (some (newEntry id k g))) := h.putNew (newEntry_inOrder hid hg k) hunknown
          refine StoresInOrder.answerKept ?_ _
          have hsub : (s.strangers.filter (· != id)).Sublist s.strangers := List.filter_sublist
          exact ⟨hput.policy, hput.entries, hput.ids, ⟨hsub.length_le.trans h.strangers.1, h.strangers.2.sublist hsub⟩,
            hput.queue.of_eq rfl rfl, hput.antennas, hput.ports, hput.stopped⟩
    next => exact .refuse _

theorem StoresInOrder.withdraw (h : StoresInOrder s) (e : EntryNo) : StoresInOrder (s.putEntry e none) := by
  have hentry {e' : EntryNo} {y : Entry} (hy : (s.putEntry e none).entry e' = some y) : s.entry e' = some y := by
    by_cases he : e = e'
    · subst he; rw [State.entry_putEntry_self] at hy; cases hy
    · rwa [State.entry_putEntry_ne _ _ he] at hy
  exact ⟨h.policy, fun e' y hy => h.entries e' y (hentry hy), fun e₁ e₂ y₁ y₂ h₁ h₂ => h.ids e₁ e₂ y₁ y₂ (hentry h₁) (hentry h₂),
    h.strangers, h.queue.of_eq rfl rfl, h.antennas, h.ports, h.stopped⟩

theorem withdrawBody_inOrder (ref : BeltpackRef) : BodyInOrder (withdrawBody ref) :=
  .withBeltpack (fun e x v s h _ _ => by
    split
    · exact .refuse _
    · split
      · exact ((h.removeRequest e).withdraw e).answerKept _
      · exact ((h.removeRequest e).withdraw e).answerKept _
      all_goals exact .refuse _) ref true

/-- A change of an entry that keeps the ID, the groups, the serving reference with its state and the survey. -/
theorem StoresInOrder.answerEntry (h : StoresInOrder s) (e : EntryNo) {f : Entry → Entry}
    (hf : ∀ x, EntryInOrder x → EntryInOrder (f x)) (hid : ∀ x, (f x).id = x.id) (p : List Byte) :
    ReplyInOrder s (.answer p (s.mapEntry e f)) :=
  (h.mapEntry e (fun x _ => hf x) hid).answerKept p (s.mapEntry_link e f)

theorem regroup_inOrder {g : Option Group × Option Group} (hg : g.1 ≠ some 0 ∧ g.2 ≠ some 0 ∧ (g.1 = none ∨ g.1 ≠ g.2))
    (h : StoresInOrder s) (hx : s.entry e = some x) : ReplyInOrder s (regroup e x g s) := by
  have hgroups (y : Entry) (hy : EntryInOrder y) : EntryInOrder (y.withGroups g) :=
    ⟨hy.id, hg, hy.serving, hy.candidates, hy.lead⟩
  unfold regroup
  split
  · exact .refuse _
  · split
    · simp only
      split
      next hcan =>
        have hlanes := h.mapLanes _ (f := fun t => Lanes.regroup t (presentGroups x.groupA x.groupB) (presentGroups g.1 g.2))
          fun hl => (hl.regroup (h.entries e x hx).nodup (presentGroups_nodup hg.2.2) hcan).1
        exact (hlanes.mapEntry e (fun y _ => hgroups y) fun _ => rfl).answerKept _ (State.mapEntry_link _ _ _)
      next => exact .refuse _
    · exact h.answerEntry e hgroups (fun _ => rfl) _

theorem setGroupsBody_inOrder (ref : BeltpackRef) (ga gb : Byte) : BodyInOrder (setGroupsBody ref ga gb) :=
  .withBeltpack (fun _ _ _ _ h hx hv => regroup_inOrder (groups?_inOrder hv) h hx) ref true

/-- An entry in order stays so while ID, groups, state, serving reference and survey do. -/
theorem EntryInOrder.of_eq {x' : Entry} (h : EntryInOrder x) (hid : x'.id = x.id) (ha : x'.groupA = x.groupA)
    (hb : x'.groupB = x.groupB) (hst : x'.state = x.state) (hs : x'.serving = x.serving) (hv : x'.survey = x.survey) :
    EntryInOrder x' :=
  ⟨hid ▸ h.id, ha ▸ hb ▸ h.groups, hst ▸ hs ▸ h.serving, hv ▸ h.candidates, hv ▸ h.lead⟩

theorem setClassBody_inOrder (ref : BeltpackRef) (cls : Byte) : BodyInOrder (setClassBody ref cls) :=
  .withBeltpack (fun e _ _ _ h _ _ => by
    refine h.answerEntry e ?_ ?_ _
    · exact fun _ hy => hy.of_eq rfl rfl rfl rfl rfl rfl
    · exact fun _ => rfl) ref true

theorem setPinBody_inOrder (ref : BeltpackRef) (pin : Byte) : BodyInOrder (setPinBody ref pin) :=
  .withBeltpack (fun e _ _ _ h _ _ => by
    refine h.answerEntry e ?_ ?_ _
    · exact fun _ hy => hy.of_eq rfl rfl rfl rfl rfl rfl
    · exact fun _ => rfl) ref true

theorem setAdmissionBody_inOrder (ref : BeltpackRef) (v : Byte) : BodyInOrder (setAdmissionBody ref v) :=
  .withBeltpack (fun e _ _ _ h _ _ => by
    refine h.answerEntry e ?_ ?_ _
    · exact fun _ hy => hy.of_eq rfl rfl rfl rfl rfl rfl
    · exact fun _ => rfl) ref false

theorem StoresInOrder.clearPosting (h : StoresInOrder s) (e : EntryNo) : StoresInOrder (s.clearPosting e) :=
  h.mapEntry e (fun _ _ hy => hy.of_eq rfl rfl rfl rfl rfl rfl) fun _ => rfl

theorem State.clearPosting_settled (s : State) (e : EntryNo) : Settled s (s.clearPosting e) := s.mapEntry_settled e

theorem directHandoffBody_inOrder (ref : BeltpackRef) (b : Byte) : BodyInOrder (directHandoffBody ref b) :=
  .withBeltpack (fun e _ _ s h _ _ => by
    split
    · exact .refuse _
    · split
      · exact .refuse _
      · split
        · exact .refuse _
        · split
          · exact .refuse _
          · exact (h.raiseRequest e _).settle.answer ((s.raiseRequest_settled e _).trans (State.settle_settled _)).link _) ref true

theorem cancelBody_inOrder (ref : BeltpackRef) : BodyInOrder (cancelBody ref) :=
  .withBeltpack (fun e x _ s h _ _ => by
    split
    · exact (h.removeRequest e).answerKept _
    · split
      · exact .refuse _
      next c _ =>
        split
        · exact .refuse _
        · split
          · have hw := ((s.giveUpAttempt_settled c).trans (State.endTransaction_settled _ c)).trans (State.settle_settled _)
            exact ((h.giveUpAttempt c).endTransaction c).settle.answer hw.link _
          · exact .refuse _) ref true

theorem StoresInOrder.detach (h : StoresInOrder s) (e : EntryNo) (x : Entry) : StoresInOrder (s.detach e x) := by
  have hoff : StoresInOrder (s.offSlot x) := by
    unfold State.offSlot
    split
    · exact h.releaseSlot _ _
    · exact h
  have hm := (hoff.removeRequest e).mapEntry e (f := fun x => { x with admission := .barred })
    (fun _ _ hy => hy.of_eq rfl rfl rfl rfl rfl rfl) fun _ => rfl
  rw [State.detach_eq]
  simp only
  split
  · exact hm
  · exact hm.detachWith e _

theorem State.detach_work (s : State) (e : EntryNo) (x : Entry) : LinkWork s.link (s.detach e x).link := by
  have hoff : LinkWork s.link (s.offSlot x).link := by
    unfold State.offSlot
    split
    · exact (s.releaseSlot_settled _ _).link
    · exact .refl
  have hm : LinkWork s.link (((s.offSlot x).removeRequest e).mapEntry e fun x => { x with admission := .barred }).link := by
    rw [State.mapEntry_link]; exact hoff
  rw [State.detach_eq]
  simp only
  split
  · exact hm
  · exact hm.trans (State.detachWith_settled _ e _).link

theorem detachBody_inOrder (ref : BeltpackRef) : BodyInOrder (detachBody ref) :=
  .withBeltpack (fun e x _ s h _ _ => by
    split
    · exact .refuse _
    · exact (h.detach e x).answer (s.detach_work e x) _) ref true

/-! ### Posted faults -/

theorem resolveBody_inOrder {k : EntryNo → Entry → PostedFault → State → CommandReply}
    (h : ∀ e x p s, StoresInOrder s → ReplyInOrder s (k e x p s)) (ref : BeltpackRef) : BodyInOrder (resolveBody ref k) :=
  .withBeltpack (fun e x _ s hs _ _ => by
    split
    · exact .refuse _
    · exact h e x _ s hs) ref false

theorem dismissBody_inOrder (ref : BeltpackRef) : BodyInOrder (dismissBody ref) :=
  resolveBody_inOrder (fun e _ _ s h => (h.clearPosting e).answer (s.clearPosting_settled e).link _) ref

theorem resolveRaise_inOrder (h : StoresInOrder s) (e : EntryNo) (x : Entry) (w : Raise) :
    ReplyInOrder s (resolveRaise e x w s) := by
  unfold resolveRaise
  split
  · exact .refuse _
  · split
    · exact .refuse _
    · have hw := ((s.clearPosting_settled e).trans (State.raiseRequest_settled _ e w)).trans (State.settle_settled _)
      exact ((h.clearPosting e).raiseRequest e w).settle.answer hw.link _

theorem retryBody_inOrder (ref : BeltpackRef) : BodyInOrder (retryBody ref) :=
  resolveBody_inOrder (fun e x _ _ h => resolveRaise_inOrder h e x _) ref

theorem nextBody_inOrder (ref : BeltpackRef) : BodyInOrder (nextBody ref) :=
  resolveBody_inOrder (fun e x _ _ h => resolveRaise_inOrder h e x _) ref

theorem resolveDetachBody_inOrder (ref : BeltpackRef) : BodyInOrder (resolveDetachBody ref) :=
  resolveBody_inOrder (fun e x _ s h => by
    split
    · exact .refuse _
    · exact ((h.clearPosting e).detach e x).answer ((s.clearPosting_settled e).link.trans (State.detach_work _ e x)) _) ref

/-! ### Reads -/

theorem readBeltpackBody_inOrder (ref : BeltpackRef) : BodyInOrder (readBeltpackBody ref) :=
  .withBeltpack (fun _ _ _ _ h _ _ => h.answerKept _) ref false

theorem readConditionsBody_inOrder (ref : BeltpackRef) : BodyInOrder (readConditionsBody ref) :=
  .withBeltpack (fun e _ _ _ h _ _ => by
    refine h.answerEntry e ?_ ?_ _
    · exact fun _ hy => hy.of_eq rfl rfl rfl rfl rfl rfl
    · exact fun _ => rfl) ref false

theorem readQueueBody_inOrder : BodyInOrder readQueueBody := bodyInOrder_of fun _ h =>
  StoresInOrder.answerKept (StoresInOrder.of_kept h) _

theorem readTransactionsBody_inOrder : BodyInOrder readTransactionsBody := bodyInOrder_of fun _ h =>
  StoresInOrder.answerKept (StoresInOrder.of_kept h) _

/-! ### The command of a frame (12.3) -/

theorem antennaServiceBody_inOrder (b action : Byte) : BodyInOrder (antennaServiceBody b action) := by
  unfold antennaServiceBody
  split
  · exact inServiceBody_inOrder b
  · exact drainBody_inOrder b
  · exact outOfServiceBody_inOrder b
  · exact forceOutBody_inOrder b
  · exact bodyInOrder_of fun _ _ => .refuse _

theorem resolveFaultBody_inOrder (ref : BeltpackRef) (action : Byte) : BodyInOrder (resolveFaultBody ref action) := by
  unfold resolveFaultBody
  split
  · exact dismissBody_inOrder ref
  · exact retryBody_inOrder ref
  · exact nextBody_inOrder ref
  · exact resolveDetachBody_inOrder ref
  · exact .withBeltpack (fun _ _ _ _ _ _ _ => .refuse _) ref false

theorem injectReportBody_inOrder (b kind : Byte) (fields : List Byte) : BodyInOrder (injectReportBody b kind fields) := by
  unfold injectReportBody
  split
  · exact injectBody_inOrder b _ fields
  · exact bodyInOrder_of fun _ _ => .refuse _

/-- The commands that the tests of a frame let through. -/
def FrameTest.All (P : (State → CommandReply) → Prop) : FrameTest → Prop
  | .command body => P body
  | .unknown | .badLength => True

section
variable {P : (State → CommandReply) → Prop} (p : List Byte)

theorem params0_all {f : State → CommandReply} (h : P f) : (params0 p f).All P := by
  unfold params0; split
  · exact h
  · trivial

theorem params1_all {f : Byte → State → CommandReply} (h : ∀ b, P (f b)) : (params1 p f).All P := by
  unfold params1; split
  · exact h _
  · trivial

theorem params2_all {f : Byte → Byte → State → CommandReply} (h : ∀ b b', P (f b b')) : (params2 p f).All P := by
  unfold params2; split
  · exact h _ _
  · trivial

theorem params0Ref_all {f : BeltpackRef → State → CommandReply} (h : ∀ ref, P (f ref)) : (params0Ref p f).All P := by
  unfold params0Ref; split
  · exact h _
  · exact h _
  · trivial

theorem params1Ref_all {f : BeltpackRef → Byte → State → CommandReply} (h : ∀ ref b, P (f ref b)) : (params1Ref p f).All P := by
  unfold params1Ref; split
  · exact h _ _
  · exact h _ _
  · trivial

theorem params2Ref_all {f : BeltpackRef → Byte → Byte → State → CommandReply} (h : ∀ ref b b', P (f ref b b')) :
    (params2Ref p f).All P := by
  unfold params2Ref; split
  · exact h _ _ _
  · exact h _ _ _
  · trivial

end

theorem commandOf_inOrder (code : Byte) (p : List Byte) : (commandOf code p).All BodyInOrder := by
  unfold commandOf
  split
  · exact params0_all p identifyBody_inOrder
  · exact params0_all p readDomainStatusBody_inOrder
  · exact params1_all p setLinkRateBody_inOrder
  · unfold paramsNoticeMode; split
    · exact setNoticeModeBody_inOrder _ _
    · trivial
  · exact params0_all p fetchNoticeBody_inOrder
  · exact params2_all p setPolicyItemBody_inOrder
  · exact params0_all p readPolicyBody_inOrder
  · exact params0_all p trunkStartBody_inOrder
  · exact params0_all p trunkStopBody_inOrder
  · exact params1_all p readAntennaBody_inOrder
  · exact params2_all p antennaServiceBody_inOrder
  · exact params1_all p clearAntennaFaultBody_inOrder
  · exact params2_all p setPortLoopbackBody_inOrder
  · unfold paramsInject; split
    · exact injectReportBody_inOrder _ _ _
    · exact injectReportBody_inOrder _ _ _
    · exact injectReportBody_inOrder _ _ _
    · trivial
  · unfold paramsEnrol; split
    · exact enrolBody_inOrder _ _ _ _
    · trivial
  · exact params0Ref_all p withdrawBody_inOrder
  · exact params0Ref_all p readBeltpackBody_inOrder
  · exact params2Ref_all p setGroupsBody_inOrder
  · exact params1Ref_all p setClassBody_inOrder
  · exact params1Ref_all p setPinBody_inOrder
  · exact params1Ref_all p directHandoffBody_inOrder
  · exact params0Ref_all p cancelBody_inOrder
  · exact params0Ref_all p detachBody_inOrder
  · exact params0Ref_all p readConditionsBody_inOrder
  · exact params1Ref_all p resolveFaultBody_inOrder
  · exact params1Ref_all p setAdmissionBody_inOrder
  · exact params0_all p readQueueBody_inOrder
  · exact params0_all p readTransactionsBody_inOrder
  · trivial

end Sys2Proof.Machine
end

section
/-! Every step keeps the stores in order, part six: bytes of the host line, and every row. -/

namespace Sys2Proof.Machine

variable {s t : State} {code : Byte}

/-! ### The host line (R164 to R169) -/

theorem InOrder.endCommandFrame (h : InOrder s) (hs : s.Chosen) (code : Byte) (p : List Byte) :
    InOrder (s.endCommandFrame code p) := by
  have hall := commandOf_inOrder code p
  unfold State.endCommandFrame
  split
  · exact h.refuseHostFrame code _
  · exact h.refuseHostFrame code _
  next body hb =>
    rw [hb] at hall
    exact h.runCommand hs hall code

theorem InOrder.endFrame (h : InOrder s) (hs : s.Chosen) (kind code length : Byte) (tail : List Byte) :
    InOrder (s.endFrame kind code length tail) := by
  unfold State.endFrame
  split
  · exact h.refuseHostFrame code _
  · split
    · exact h.refuseHostFrame code _
    · exact h.endCommandFrame hs code _

theorem InOrder.setReceiver (h : InOrder s) (r : HostReceiver) : InOrder (s.mapLink fun l => { l with receiver := r }) :=
  h.mapLink (h.link.of_eq rfl rfl rfl rfl rfl)

theorem InOrder.takeFrameByte (h : InOrder s) (hs : s.Chosen) (bytes : List Byte) : InOrder (s.takeFrameByte bytes) := by
  unfold State.takeFrameByte
  simp only
  split
  · split
    · exact h.refuseHostFrame _ _
    · split
      · exact h.endFrame hs _ _ _ _
      · exact h.setReceiver _
  · exact h.setReceiver _

theorem InOrder.takeRxdByte (h : InOrder s) (hs : s.Chosen) (b : Byte) : InOrder (s.takeRxdByte b) := by
  unfold State.takeRxdByte
  split
  · split
    · exact h.setReceiver _
    · exact h
  · exact h.takeFrameByte hs _

theorem InOrder.expireGap (h : InOrder s) : InOrder s.expireGap := by
  unfold State.expireGap
  split
  · exact h
  · exact h.refuseHostFrame _ _

theorem InOrder.frameSent (h : InOrder s) : InOrder (s.mapLink HostLink.finishFrame).wake := by
  obtain ⟨hb, ha⟩ := h.link.finishFrame
  exact inOrder_iff.mpr ⟨hb.choose_inOrder ha, ((inOrder_iff.mp h).2.mapLink _).wake⟩

/-! ### Every row -/

theorem InOrder.hostCommand {body : State → CommandReply} (h : InOrder s) (hbody : BodyInOrder body)
    (hx : hostCommand code body s = .next t) : InOrder t := by
  injection hx with hx
  exact hx ▸ h.wake.runCommand s.wake_chosen hbody code

theorem InOrder.event {i : Instr} (hi : isEvent i = true) (h : InOrder s) (hx : exec i s = .next t) : InOrder t :=
  inOrder_iff.mpr ⟨h.wake.link.linkWork (exec_event_hostKept hi hx).link, (inOrder_iff.mp h.wake).2.event hi hx⟩

theorem InOrder.pending (h : InOrder s) (cs : List Instr) : InOrder { s with pending := cs } :=
  inOrder_iff.mpr ⟨h.link, (inOrder_iff.mp h).2.of_kept⟩

/-- Every row of the model keeps the stores in order. -/
theorem InOrder.ofExec {i : Instr} (h : InOrder s) (hx : exec i s = .next t) : InOrder t := by
  have of {u : State} (hu : InOrder u) (he : exec i s = .next u) : InOrder t := by
    rw [he] at hx; injection hx with hx; exact hx ▸ hu
  cases i with
  | reset =>
    refine of (inOrder_iff.mpr ⟨?_, ?_⟩) rfl
    · exact reset_inOrder.link
    · exact (inOrder_iff.mp reset_inOrder).2.of_kept
  | identify => exact h.hostCommand identifyBody_inOrder hx
  | readDomainStatus => exact h.hostCommand readDomainStatusBody_inOrder hx
  | setLinkRate b => exact h.hostCommand (setLinkRateBody_inOrder b) hx
  | setNoticeMode m sel => exact h.hostCommand (setNoticeModeBody_inOrder m sel) hx
  | fetchNotice => exact h.hostCommand fetchNoticeBody_inOrder hx
  | setPolicyItem i f => exact h.hostCommand (setPolicyItemBody_inOrder i f) hx
  | readPolicy => exact h.hostCommand readPolicyBody_inOrder hx
  | trunkStart => exact h.hostCommand trunkStartBody_inOrder hx
  | trunkStop => exact h.hostCommand trunkStopBody_inOrder hx
  | readAntenna b => exact h.hostCommand (readAntennaBody_inOrder b) hx
  | inServiceAction b => exact h.hostCommand (inServiceBody_inOrder b) hx
  | drainAction b => exact h.hostCommand (drainBody_inOrder b) hx
  | outOfServiceAction b => exact h.hostCommand (outOfServiceBody_inOrder b) hx
  | forceOut b => exact h.hostCommand (forceOutBody_inOrder b) hx
  | clearAntennaFault b => exact h.hostCommand (clearAntennaFaultBody_inOrder b) hx
  | setPortLoopback b m => exact h.hostCommand (setPortLoopbackBody_inOrder b m) hx
  | injectSighting b f => exact h.hostCommand (injectBody_inOrder b _ f) hx
  | injectSeek b f => exact h.hostCommand (injectBody_inOrder b _ f) hx
  | injectArrival b f => exact h.hostCommand (injectBody_inOrder b _ f) hx
  | injectSignOff b f => exact h.hostCommand (injectBody_inOrder b _ f) hx
  | enrolBeltpack id c ga gb => exact h.hostCommand (enrolBody_inOrder id c ga gb) hx
  | withdrawBeltpack ref => exact h.hostCommand (withdrawBody_inOrder ref) hx
  | readBeltpack ref => exact h.hostCommand (readBeltpackBody_inOrder ref) hx
  | setGroups ref ga gb => exact h.hostCommand (setGroupsBody_inOrder ref ga gb) hx
  | setClass ref c => exact h.hostCommand (setClassBody_inOrder ref c) hx
  | setPin ref p => exact h.hostCommand (setPinBody_inOrder ref p) hx
  | directHandoff ref b => exact h.hostCommand (directHandoffBody_inOrder ref b) hx
  | cancelRequest ref => exact h.hostCommand (cancelBody_inOrder ref) hx
  | detachBeltpack ref => exact h.hostCommand (detachBody_inOrder ref) hx
  | readConditions ref => exact h.hostCommand (readConditionsBody_inOrder ref) hx
  | resolveFaultDismiss ref => exact h.hostCommand (dismissBody_inOrder ref) hx
  | resolveFaultRetry ref => exact h.hostCommand (retryBody_inOrder ref) hx
  | resolveFaultNext ref => exact h.hostCommand (nextBody_inOrder ref) hx
  | resolveFaultDetach ref => exact h.hostCommand (resolveDetachBody_inOrder ref) hx
  | setAdmission ref v => exact h.hostCommand (setAdmissionBody_inOrder ref v) hx
  | readQueue => exact h.hostCommand readQueueBody_inOrder hx
  | readTransactions => exact h.hostCommand readTransactionsBody_inOrder hx
  | receiveError code error => exact of (h.wake.refuseHostFrame code _) rfl
  | gapTimerExpiry => exact of h.wake.expireGap rfl
  | commandFrameLost code p => exact of (h.wake.endCommandFrame s.wake_chosen code p) rfl
  | frameSent => exact of h.wake.frameSent rfl
  | rxdByteTaken b => exact of (h.wake.takeRxdByte s.wake_chosen b) rfl
  | _ => exact h.event rfl hx

/-- Settles O59. -/
theorem everyStepKeepsTheStoresInOrder : Obligations.EveryStepKeepsTheStoresInOrder := by
  intro s t h hstep
  cases hp : s.pending with
  | nil =>
    rw [step_idle hp] at hstep
    injection hstep with hstep
    exact hstep ▸ h
  | cons i cs =>
    rw [step_front hp] at hstep
    exact (h.pending cs).ofExec hstep

end Sys2Proof.Machine
end

section
/-! Every step keeps transactions in order, part one: the agreement of slots, transactions and requests, told beltpack by beltpack. -/

namespace Sys2Proof.Machine

variable {s t u : State} {a b : AntennaNo} {sl : SlotNo} {e e' : EntryNo} {x x' : Entry} {c : ContextNo} {y y' : Context}
  {w : Option AntennaNo}

/-! ### One beltpack

While an antenna is swept its port is clear and its lanes are not yet emptied. The antenna `w` is the one that is swept, if
there is one: the lanes there are not looked at, and no order awaits its outcome there. -/

/-- The slots of a beltpack (R44): one at an antenna, and the Occupied one is where `sv` says. -/
structure Holding (s : State) (e : EntryNo) (sv : Option (AntennaNo × SlotNo)) : Prop where
  once : ∀ a sl sl', Holds s a sl e → Holds s a sl' e → sl = sl'
  occupied : ∀ a sl, s.slot a sl = .occupied e ↔ sv = some (a, sl)

/-- The timers of an entry run in the states that R2 gives. -/
structure Timed (x : Entry) : Prop where
  settle : x.settleTimer ≠ none → x.state = .served
  lost : x.lostTimer ≠ none → x.state = .lost
  window : x.windowExpired = true → x.state = .lost

/-- A beltpack without a transaction. -/
structure Idle (s : State) (e : EntryNo) (x : Entry) : Prop where
  entry : s.entry e = some x
  timed : Timed x
  context : x.context = none
  still : x.state ≠ .attaching ∧ x.state ≠ .moving
  window : x.windowExpired = false
  holding : Holding s e x.serving
  unreserved : ∀ a sl, s.slot a sl ≠ .reserved e
  free : ∀ c y, s.ctx c = some y → y.entry ≠ e

/-- A beltpack whose transaction runs, wherever it aims. -/
structure Busy (s : State) (e : EntryNo) (x : Entry) (c : ContextNo) (y : Context) : Prop where
  entry : s.entry e = some x
  timed : Timed x
  context : x.context = some c
  ctx : s.ctx c = some y
  mine : y.entry = e
  only : ∀ c' y', s.ctx c' = some y' → y'.entry = e → c' = c
  unasked : ¬ HasRequest s e
  fits : y.fits x
  source : y.source.isSome = true ↔ y.kind = .move
  releasing : y.phase = .release → ∀ b sl, y.source = some (b, sl) → s.slot b sl = .releasing e
  holding : Holding s e x.serving
  reserved : ∀ a sl, s.slot a sl = .reserved e → y.target = some a ∧ y.targetSlot = some sl ∧ y.phase ≠ .release

/-- The types of the orders that the context's record says are awaited at a port. -/
def Context.expects (y : Context) (a : AntennaNo) : List OrderType :=
  match y.awaited with
  | none => []
  | some v => if v.port = a ∧ v.type ≠ .release then [v.type] else []

/-- The transaction aims at its reserved slot, and awaits the order of its phase. -/
structure Aimed (w : Option AntennaNo) (s : State) (e : EntryNo) (c : ContextNo) (y : Context) : Prop where
  target : ∃ a sl, y.target = some a ∧ y.targetSlot = some sl ∧ y.awaits a ∧
    (y.phase ≠ .release → s.slot a sl = .reserved e)
  orders : ∀ a, (s.port a).awaitedBy c = if w = some a then [] else y.expects a

/-- No slot, transaction or request names a beltpack that the roster does not hold. -/
structure Unnamed (s : State) (e : EntryNo) : Prop where
  entry : s.entry e = none
  free : ∀ c y, s.ctx c = some y → y.entry ≠ e
  slots : ∀ a sl, ¬ Holds s a sl e
  unasked : ¬ HasRequest s e

/-- The slots, the transaction and the requests of one beltpack agree. -/
inductive Beltpack (w : Option AntennaNo) (s : State) (e : EntryNo) : Prop
  | absent (h : Unnamed s e)
  | idle {x : Entry} (h : Idle s e x)
  | busy {x : Entry} {c : ContextNo} {y : Context} (h : Busy s e x c y) (ha : Aimed w s e c y)

/-! ### The whole part -/

/-- The lanes count the groups of the beltpacks in the slots (R45). -/
def LanesCount (w : Option AntennaNo) (s : State) : Prop :=
  ∀ a g, w ≠ some a → laneUsers (s.ant a).lanes g = countOf (s.slotLists a g)

/-- No order at a port is awaited by the context. -/
def Unawaited (s : State) (c : ContextNo) : Prop := ∀ a, (s.port a).awaitedBy c = []

/-- A beltpack has one request at most (R80). -/
def OneEach (q : List Request) : Prop := q.Pairwise fun r r' => r.entry ≠ r'.entry

/-- All beltpacks agree but the one that is worked on, if there is one. -/
structure AgreeBut (o : Option EntryNo) (w : Option AntennaNo) (s : State) : Prop where
  beltpacks : ∀ e, o ≠ some e → Beltpack w s e
  lanes : LanesCount w s
  freed : ∀ c, s.ctx c = none → Unawaited s c
  one : OneEach s.queue

theorem holds_iff : Holds s a sl e ↔ (s.slot a sl).entry? = some e := Slot.entry?_some.symm

theorem TransactionsInOrder.beltpack (h : TransactionsInOrder s) (e : EntryNo) : Beltpack none s e := by
  have hctx {c : ContextNo} {y : Context} (hy : s.ctx c = some y) (hye : y.entry = e) :
      ∃ x, s.entry e = some x ∧ x.context = some c ∧ y.fits x := hye ▸ (h.transactions c y hy).entry
  have hasks (hq : HasRequest s e) : ∃ x, s.entry e = some x ∧ x.context = none := by
    obtain ⟨r, hr, rfl⟩ := hq; exact h.requests r hr
  cases he : s.entry e with
  | none =>
    refine .absent ⟨he, fun c y hy hye => ?_, fun a sl hs => h.slots.held a sl e hs he, fun hq => ?_⟩
    · obtain ⟨x, hx, -⟩ := hctx hy hye
      rw [he] at hx; cases hx
    · obtain ⟨x, hx, -⟩ := hasks hq
      rw [he] at hx; cases hx
  | some x =>
    have hagrees := h.entries e x he
    have htimed : Timed x := ⟨hagrees.settle, hagrees.lost, fun hw => (hagrees.window hw).1⟩
    have hholding : Holding s e x.serving :=
      ⟨fun a sl sl' => h.slots.once a sl sl' e, fun a sl => h.slots.occupied a sl e x he⟩
    have hcontext {c : ContextNo} {y : Context} (hy : s.ctx c = some y) (hye : y.entry = e) : x.context = some c := by
      obtain ⟨x', hx', hc, -⟩ := hctx hy hye
      obtain rfl := Option.some.inj (he.symm.trans hx')
      exact hc
    cases hc : x.context with
    | none =>
      have hfree (c : ContextNo) (y : Context) (hy : s.ctx c = some y) (hye : y.entry = e) : False := by
        have := hcontext hy hye
        rw [hc] at this; cases this
      refine .idle ⟨he, htimed, hc, ⟨fun hst => hagrees.transit (.inl hst) hc, fun hst => hagrees.transit (.inr hst) hc⟩, ?_,
        hholding, fun a sl hs => ?_, fun c y hy hye => hfree c y hy hye⟩
      · exact Bool.eq_false_iff.mpr fun hw => (hagrees.window hw).2 hc
      · obtain ⟨c, y, hy, hye, -⟩ := h.slots.reserved a sl e hs
        exact hfree c y hy hye
    | some c =>
      obtain ⟨y, hy, hye⟩ := hagrees.context c hc
      have honly {c' : ContextNo} {y' : Context} (hy' : s.ctx c' = some y') (hye' : y'.entry = e) : c' = c :=
        Option.some.inj ((hcontext hy' hye').symm.trans hc)
      have hty := h.transactions c y hy
      obtain ⟨x', hx', -, hfits⟩ := hctx hy hye
      obtain rfl := Option.some.inj (he.symm.trans hx')
      refine .busy ⟨he, htimed, hc, hy, hye, fun c' y' => honly, fun hq => ?_, hfits, hty.source, ?_, hholding,
        fun a sl hs => ?_⟩ ⟨?_, fun a => ?_⟩
      · obtain ⟨x', hx', hn⟩ := hasks hq
        obtain rfl := Option.some.inj (he.symm.trans hx')
        rw [hc] at hn; cases hn
      · exact hye ▸ hty.releasing
      · obtain ⟨c', y', hy', hye', ht⟩ := h.slots.reserved a sl e hs
        obtain rfl := honly hy' hye'
        obtain rfl := Option.some.inj (hy.symm.trans hy')
        exact ht
      · exact hye ▸ hty.target
      · rw [h.orders a c, hy, if_neg nofun, Option.bind_some, Context.expects] <;> rfl

theorem AgreeBut.of_transactions (h : TransactionsInOrder s) : AgreeBut none none s where
  beltpacks e _ := h.beltpack e
  lanes a g _ := h.slots.lanes a g
  freed c hc a := by rw [h.orders a c, hc]; rfl
  one := h.one

theorem AgreeBut.transactionsInOrder (h : AgreeBut none none s) : TransactionsInOrder s := by
  have hb (e : EntryNo) : Beltpack none s e := h.beltpacks e nofun
  have hctx {c : ContextNo} {y : Context} (hy : s.ctx c = some y) :
      ∃ x, Busy s y.entry x c y ∧ Aimed none s y.entry c y := by
    cases hb y.entry with
    | absent hn => exact absurd rfl (hn.free c y hy)
    | idle hi => exact absurd rfl (hi.free c y hy)
    | @busy x c' y' hbusy ha =>
      obtain rfl := hbusy.only c y hy rfl
      obtain rfl := Option.some.inj (hy.symm.trans hbusy.ctx)
      exact ⟨x, hbusy, ha⟩
  refine ⟨⟨fun a sl e hs he => ?_, fun a sl sl' e hs hs' => ?_, fun a sl e x he => ?_, fun a sl e hs => ?_,
    fun a g => h.lanes a g nofun⟩, fun c y hy => ?_, fun e x he => ?_, fun r hr => ?_, h.one, fun a c => ?_⟩
  · cases hb e with
    | absent hn => exact hn.slots a sl hs
    | idle hi => rw [hi.entry] at he; cases he
    | busy hbusy _ => rw [hbusy.entry] at he; cases he
  · cases hb e with
    | absent hn => exact absurd hs (hn.slots a sl)
    | idle hi => exact hi.holding.once a sl sl' hs hs'
    | busy hbusy _ => exact hbusy.holding.once a sl sl' hs hs'
  · cases hb e with
    | absent hn => rw [hn.entry] at he; cases he
    | idle hi =>
      obtain rfl := Option.some.inj (hi.entry.symm.trans he)
      exact hi.holding.occupied a sl
    | busy hbusy _ =>
      obtain rfl := Option.some.inj (hbusy.entry.symm.trans he)
      exact hbusy.holding.occupied a sl
  · cases hb e with
    | absent hn => exact absurd (.inl hs) (hn.slots a sl)
    | idle hi => exact absurd hs (hi.unreserved a sl)
    | @busy x c y hbusy _ => exact ⟨c, y, hbusy.ctx, hbusy.mine, hbusy.reserved a sl hs⟩
  · obtain ⟨x, hbusy, ha⟩ := hctx hy
    exact ⟨⟨x, hbusy.entry, hbusy.context, hbusy.fits⟩, hbusy.source, hbusy.releasing, ha.target⟩
  · cases hb e with
    | absent hn => rw [hn.entry] at he; cases he
    | idle hi =>
      obtain rfl := Option.some.inj (hi.entry.symm.trans he)
      refine ⟨fun c hc => ?_, fun hst => absurd hst (not_or.mpr hi.still), hi.timed.settle, hi.timed.lost, fun hw => ?_⟩
      · rw [hi.context] at hc; cases hc
      · rw [hi.window] at hw; cases hw
    | @busy x' c y hbusy _ =>
      obtain rfl := Option.some.inj (hbusy.entry.symm.trans he)
      refine ⟨fun c' hc' => ?_, fun _ => by rw [hbusy.context]; nofun, hbusy.timed.settle, hbusy.timed.lost,
        fun hw => ⟨hbusy.timed.window hw, by rw [hbusy.context]; nofun⟩⟩
      obtain rfl := Option.some.inj (hbusy.context.symm.trans hc')
      exact ⟨y, hbusy.ctx, hbusy.mine⟩
  · cases hb r.entry with
    | absent hn => exact absurd ⟨r, hr, rfl⟩ hn.unasked
    | @idle x hi => exact ⟨x, hi.entry, hi.context⟩
    | busy hbusy _ => exact absurd ⟨r, hr, rfl⟩ hbusy.unasked
  · cases hy : s.ctx c with
    | none => exact h.freed c hy a
    | some y =>
      obtain ⟨x, -, ha⟩ := hctx hy
      rw [ha.orders a, if_neg nofun, Option.bind_some, Context.expects] <;> rfl

theorem agreeBut_iff : AgreeBut none none s ↔ TransactionsInOrder s :=
  ⟨AgreeBut.transactionsInOrder, AgreeBut.of_transactions⟩

/-! ### What is left alone beside one beltpack -/

/-- From `s` to `t` nothing of the other beltpacks has changed: of the contexts `oc` alone, which is one of `e`'s. -/
structure Beside (e : EntryNo) (oc : Option ContextNo) (s t : State) : Prop where
  entries : ∀ e', e' ≠ e → t.entry e' = s.entry e'
  contexts : ∀ c, oc ≠ some c → t.ctx c = s.ctx c
  own : ∀ c y, oc = some c → s.ctx c = some y → y.entry = e
  owned : ∀ c y, oc = some c → t.ctx c = some y → y.entry = e
  slots : ∀ a sl v e', v.entry? = some e' → e' ≠ e → (t.slot a sl = v ↔ s.slot a sl = v)
  orders : ∀ c, oc ≠ some c → ∀ a, (t.port a).awaitedBy c = (s.port a).awaitedBy c
  requests : ∀ e', e' ≠ e → HasRequest t e' → HasRequest s e'

variable {oc : Option ContextNo}

theorem Beside.trans (h : Beside e oc s t) (h' : Beside e oc t u) : Beside e oc s u where
  entries e' he := (h'.entries e' he).trans (h.entries e' he)
  contexts c hc := (h'.contexts c hc).trans (h.contexts c hc)
  own := h.own
  owned := h'.owned
  slots a sl v e' hv he := (h'.slots a sl v e' hv he).trans (h.slots a sl v e' hv he)
  orders c hc a := (h'.orders c hc a).trans (h.orders c hc a)
  requests e' he hq := h.requests e' he (h'.requests e' he hq)

section
variable (hb : Beside e oc s t) (hne : e' ≠ e)
include hb hne

theorem Beside.ctx_iff {c : ContextNo} {y : Context} (hy : y.entry = e') : t.ctx c = some y ↔ s.ctx c = some y := by
  by_cases hc : oc = some c
  · exact ⟨fun h => absurd (hy.symm.trans (hb.owned c y hc h)) hne, fun h => absurd (hy.symm.trans (hb.own c y hc h)) hne⟩
  · rw [hb.contexts c hc]

theorem Beside.holds_iff {a : AntennaNo} {sl : SlotNo} : Holds t a sl e' ↔ Holds s a sl e' := by
  simp only [Holds, hb.slots a sl (.reserved e') e' rfl hne, hb.slots a sl (.occupied e') e' rfl hne,
    hb.slots a sl (.releasing e') e' rfl hne]

theorem Beside.holding {sv : Option (AntennaNo × SlotNo)} (h : Holding s e' sv) : Holding t e' sv where
  once a sl sl' h1 h2 := h.once a sl sl' ((hb.holds_iff hne).mp h1) ((hb.holds_iff hne).mp h2)
  occupied a sl := (hb.slots a sl _ e' rfl hne).trans (h.occupied a sl)

theorem Beside.free (h : ∀ c y, s.ctx c = some y → y.entry ≠ e') (c : ContextNo) (y : Context) (hy : t.ctx c = some y) :
    y.entry ≠ e' := fun hye => h c y ((hb.ctx_iff hne hye).mp hy) hye

theorem Beside.idle {x : Entry} (h : Idle s e' x) : Idle t e' x where
  entry := (hb.entries e' hne).trans h.entry
  timed := h.timed
  context := h.context
  still := h.still
  window := h.window
  holding := hb.holding hne h.holding
  unreserved a sl hs := h.unreserved a sl ((hb.slots a sl _ e' rfl hne).mp hs)
  free := hb.free hne h.free

theorem Beside.busy {x : Entry} {c : ContextNo} {y : Context} (h : Busy s e' x c y) : Busy t e' x c y where
  entry := (hb.entries e' hne).trans h.entry
  timed := h.timed
  context := h.context
  ctx := (hb.ctx_iff hne h.mine).mpr h.ctx
  mine := h.mine
  only c' y' hy' hye' := h.only c' y' ((hb.ctx_iff hne hye').mp hy') hye'
  unasked hq := h.unasked (hb.requests e' hne hq)
  fits := h.fits
  source := h.source
  releasing hp b sl hs := (hb.slots b sl _ e' rfl hne).mpr (h.releasing hp b sl hs)
  holding := hb.holding hne h.holding
  reserved a sl hs := h.reserved a sl ((hb.slots a sl _ e' rfl hne).mp hs)

theorem Beside.beltpack (h : Beltpack w s e') : Beltpack w t e' := by
  cases h with
  | absent hn =>
    exact .absent ⟨(hb.entries e' hne).trans hn.entry, hb.free hne hn.free,
      fun a sl hs => hn.slots a sl ((hb.holds_iff hne).mp hs), fun hq => hn.unasked (hb.requests e' hne hq)⟩
  | idle hi => exact .idle (hb.idle hne hi)
  | @busy x c y hbusy ha =>
    refine .busy (hb.busy hne hbusy) ⟨?_, fun a => ?_⟩
    · obtain ⟨a, sl, ht, hs, haw, hr⟩ := ha.target
      exact ⟨a, sl, ht, hs, haw, fun hp => (hb.slots a sl _ e' rfl hne).mpr (hr hp)⟩
    · have hc : oc ≠ some c := fun hc => hne (hbusy.mine.symm.trans (hb.own c y hc hbusy.ctx))
      rw [hb.orders c hc a, ha.orders a]

end

/-- A step of the work on one beltpack. -/
structure WorkStep (w : Option AntennaNo) (e : EntryNo) (oc : Option ContextNo) (s t : State) : Prop extends Beside e oc s t where
  lanes : LanesCount w s → LanesCount w t
  one : OneEach s.queue → OneEach t.queue
  freed : ∀ c, oc = some c → (s.ctx c = none → Unawaited s c) → t.ctx c = none → Unawaited t c

theorem WorkStep.trans (h : WorkStep w e oc s t) (h' : WorkStep w e oc t u) : WorkStep w e oc s u where
  toBeside := h.toBeside.trans h'.toBeside
  lanes := h'.lanes ∘ h.lanes
  one := h'.one ∘ h.one
  freed c hc := h'.freed c hc ∘ h.freed c hc

/-- The other beltpacks still agree after the step. -/
theorem AgreeBut.step (h : AgreeBut (some e) w s) (hs : WorkStep w e oc s t) : AgreeBut (some e) w t where
  beltpacks e' he := hs.beltpack (fun heq => he (heq ▸ rfl)) (h.beltpacks e' he)
  lanes := hs.lanes h.lanes
  freed c hn := by
    by_cases hc : oc = some c
    · exact hs.freed c hc (h.freed c) hn
    · intro a
      rw [hs.contexts c hc] at hn
      rw [hs.orders c hc a]
      exact h.freed c hn a
  one := hs.one h.one

theorem AgreeBut.but (h : AgreeBut none w s) (e : EntryNo) : AgreeBut (some e) w s :=
  ⟨fun e' _ => h.beltpacks e' nofun, h.lanes, h.freed, h.one⟩

/-- The work is done once its beltpack agrees too. -/
theorem AgreeBut.done (h : AgreeBut (some e) w s) (he : Beltpack w s e) : AgreeBut none w s :=
  ⟨fun e' _ => if hne : e' = e then hne ▸ he else h.beltpacks e' (fun heq => hne (Option.some.inj heq).symm), h.lanes, h.freed, h.one⟩

end Sys2Proof.Machine
end

section
/-! Every step keeps transactions in order, part two: the orders at a port, the lanes, and the steps of the work on one beltpack. -/

namespace Sys2Proof.Machine

variable {s t u : State} {a b : AntennaNo} {sl : SlotNo} {e e' : EntryNo} {x x' : Entry} {c c' : ContextNo} {y y' : Context}
  {w : Option AntennaNo} {oc : Option ContextNo} {p : Port} {o : Order}

/-! ### The orders at a port (R154, R155) -/

/-- The order in flight. -/
def Port.flying (p : Port) : List Order := match p.inFlight with | some ⟨.order o, _, _⟩ => [o] | _ => []

/-- The orders that have no outcome yet, oldest first. -/
def Port.unanswered (p : Port) : List Order := p.flying ++ p.fifo ++ p.waiting

theorem Port.awaitedBy_eq (p : Port) (c : ContextNo) :
    p.awaitedBy c = (p.unanswered.filter fun o => o.poster = .context c).map (·.body.type) := rfl

theorem Port.awaitedBy_congr {p' : Port} (h : p'.unanswered = p.unanswered) (c : ContextNo) : p'.awaitedBy c = p.awaitedBy c := by
  rw [Port.awaitedBy_eq, Port.awaitedBy_eq, h]

theorem Port.unanswered_post (p : Port) (o : Order) : (p.post o).unanswered = p.unanswered ++ [o] := by
  unfold Port.post
  split
  next h =>
    obtain ⟨-, hw⟩ := Bool.and_eq_true_iff.mp h
    rw [List.isEmpty_iff] at hw
    simp only [Port.unanswered, Port.flying, hw, List.append_nil, List.append_assoc]
  next => simp only [Port.unanswered, Port.flying, List.append_assoc]

theorem Port.unanswered_placeWaiting (p : Port) : p.placeWaiting.unanswered = p.unanswered := by
  unfold Port.placeWaiting
  split
  · rfl
  next o ws hw =>
    split
    · simp only [Port.unanswered, Port.flying, hw, List.append_assoc, List.singleton_append]
    · rfl

theorem Port.unanswered_begin (p : Port) (running : Bool) (mode : LoopbackMode) (ms : Nat) :
    (p.begin running mode ms).unanswered = p.unanswered := by
  rcases p.begin_cases running mode ms with hb | ⟨-, hf, ⟨-, hb⟩ | ⟨-, o, os, ho, hb⟩⟩
  · rw [hb]
  · rw [hb]
    simp only [Port.unanswered, Port.flying, hf]
  · rw [hb, Port.unanswered_placeWaiting]
    simp only [Port.unanswered, Port.flying, hf, ho, List.nil_append, List.singleton_append]

theorem Port.awaitedBy_post (p : Port) (o : Order) (c : ContextNo) :
    (p.post o).awaitedBy c = p.awaitedBy c ++ if o.poster = .context c then [o.body.type] else [] := by
  rw [Port.awaitedBy_eq, Port.unanswered_post, List.filter_append, List.map_append, ← Port.awaitedBy_eq]
  split
  next h => simp [h]
  next h => simp [h]

/-- What a context leaves awaits nothing of it, and nothing changes for the others (R95). -/
theorem Port.unanswered_leave (p : Port) (c : ContextNo) :
    (p.leave c).unanswered = (p.flying ++ p.fifo).map (·.disown c) ++ p.waiting.filter fun o => o.poster != .context c := by
  have hf : (p.leave c).flying = p.flying.map (·.disown c) := by
    unfold Port.leave Port.flying
    cases hi : p.inFlight with
    | none => rfl
    | some x =>
      obtain ⟨sent, ms, r⟩ := x
      cases sent <;> rfl
  rw [Port.unanswered, hf, List.map_append]
  rfl

theorem Order.disown_poster (o : Order) (c c' : ContextNo) :
    ((o.disown c).poster = .context c' ↔ o.poster = .context c' ∧ c ≠ c') ∧ (o.disown c).body = o.body := by
  unfold Order.disown
  split
  next h => exact ⟨⟨nofun, fun ⟨h', hne⟩ => absurd (Poster.context.inj (h.symm.trans h')) hne⟩, rfl⟩
  next h => exact ⟨⟨fun h' => ⟨h', fun hc => h (hc ▸ h')⟩, And.left⟩, rfl⟩

theorem awaited_map_disown (l : List Order) (c c' : ContextNo) :
    ((l.map (·.disown c)).filter fun o => o.poster = .context c').map (·.body.type) =
      if c = c' then [] else (l.filter fun o => o.poster = .context c').map (·.body.type) := by
  induction l with
  | nil => simp
  | cons o l ih =>
    obtain ⟨hp, hb⟩ := o.disown_poster c c'
    rw [List.map_cons, List.filter_cons, List.filter_cons]
    by_cases hc : c = c'
    · rw [if_pos hc] at ih ⊢
      rw [if_neg (by simpa using fun h => (hp.mp h).2 hc), ih]
    · rw [if_neg hc] at ih ⊢
      by_cases ho : o.poster = .context c'
      · rw [if_pos (by simpa using hp.mpr ⟨ho, hc⟩), if_pos (by simpa using ho), List.map_cons, List.map_cons, ih, hb]
      · rw [if_neg (by simpa using fun h => ho (hp.mp h).1), if_neg (by simpa using ho), ih]

theorem awaited_filter (l : List Order) (c c' : ContextNo) :
    ((l.filter fun o => o.poster != .context c).filter fun o => o.poster = .context c').map (·.body.type) =
      if c = c' then [] else (l.filter fun o => o.poster = .context c').map (·.body.type) := by
  rw [List.filter_filter]
  split
  next h =>
    rw [List.filter_eq_nil_iff.mpr, List.map_nil]
    intro o _
    simp [h]
  next h =>
    congr 1
    refine List.filter_congr fun o _ => ?_
    by_cases ho : o.poster = .context c'
    · have : o.poster ≠ .context c := fun ho' => h (Poster.context.inj (ho'.symm.trans ho))
      simp [ho, Ne.symm h]
    · simp [ho]

theorem Port.awaitedBy_leave (p : Port) (c c' : ContextNo) : (p.leave c).awaitedBy c' = if c = c' then [] else p.awaitedBy c' := by
  rw [Port.awaitedBy_eq, p.unanswered_leave, List.filter_append, List.map_append, awaited_map_disown, awaited_filter]
  split
  · rfl
  · rw [← List.map_append, ← List.filter_append]; rfl

theorem Port.awaitedBy_clear (p : Port) (c : ContextNo) : p.clear.awaitedBy c = [] := rfl

theorem Port.flying_eq (p : Port) : p.flying = p.orderInFlight.toList := by
  unfold Port.orderInFlight Port.flying
  cases p.inFlight with
  | none => rfl
  | some x => obtain ⟨sent, ms, r⟩ := x; cases sent <;> rfl

/-- The end of an exchange takes the order in flight away. -/
theorem Port.awaitedBy_of_flying (hf : p.orderInFlight = some o) (c : ContextNo) : p.awaitedBy c =
    (if o.poster = .context c then [o.body.type] else []) ++ ({ p with inFlight := none } : Port).awaitedBy c := by
  rw [Port.awaitedBy_eq, Port.unanswered, Port.flying_eq, hf, List.append_assoc, List.filter_append, List.map_append]
  congr 1
  split
  next h => simp [h]
  next h => simp [h]

/-- With no order in flight the end of an exchange changes nothing for the contexts. -/
theorem Port.awaitedBy_endNoOrder (hf : p.orderInFlight = none) (c : ContextNo) :
    ({ p with inFlight := none } : Port).awaitedBy c = p.awaitedBy c := by
  refine Port.awaitedBy_congr ?_ c
  rw [Port.unanswered, Port.unanswered, p.flying_eq, hf]
  rfl

/-! ### The orders of a state -/

theorem State.awaitedBy_mapPort (s : State) (a b : AntennaNo) (f : Port → Port) (c : ContextNo) :
    ((s.mapPort a f).port b).awaitedBy c = if a = b then (f (s.port a)).awaitedBy c else (s.port b).awaitedBy c := by
  split
  next h => rw [← h, State.port_mapPort_self]
  next h => rw [State.port_mapPort_ne _ _ h]

theorem State.awaitedBy_beginExchange (s : State) (a b : AntennaNo) (c : ContextNo) :
    ((s.beginExchange a).port b).awaitedBy c = (s.port b).awaitedBy c := by
  rw [State.beginExchange, State.awaitedBy_mapPort]
  split
  next h => rw [Port.awaitedBy_congr (Port.unanswered_begin _ _ _ _), h]
  next => rfl

theorem State.awaitedBy_postOrder (s : State) (a b : AntennaNo) (o : Order) (c : ContextNo) :
    ((s.postOrder a o).port b).awaitedBy c =
      (s.port b).awaitedBy c ++ if a = b ∧ o.poster = .context c then [o.body.type] else [] := by
  rw [State.postOrder, State.awaitedBy_beginExchange, State.awaitedBy_mapPort]
  by_cases h : a = b
  · subst h
    rw [if_pos rfl, Port.awaitedBy_post]
    simp
  · rw [if_neg h, if_neg fun hh => h hh.1, List.append_nil]

/-! ### Counting the slots that list a group (R45) -/

theorem countOf_eq_sum {n : Nat} (f : Fin n → Bool) : countOf f = ∑ i, (f i).toNat := by
  rw [Fin.sum_univ_def, countOf]
  induction List.finRange n with
  | nil => rfl
  | cons i l ih =>
    rw [List.filter_cons, List.map_cons, List.sum_cons, ← ih]
    cases f i
    · exact (Nat.zero_add _).symm
    · exact Nat.add_comm _ 1

/-- One place of a count changed. -/
theorem countOf_change {n : Nat} {f g : Fin n → Bool} (i : Fin n) (h : ∀ j, i ≠ j → g j = f j) :
    countOf g + (f i).toNat = countOf f + (g i).toNat := by
  rw [countOf_eq_sum, countOf_eq_sum, ← Finset.add_sum_erase _ _ (Finset.mem_univ i),
    ← Finset.add_sum_erase _ (fun j => (f j).toNat) (Finset.mem_univ i)]
  have hrest : ∑ j ∈ Finset.univ.erase i, (g j).toNat = ∑ j ∈ Finset.univ.erase i, (f j).toNat :=
    Finset.sum_congr rfl fun j hj => by rw [h j (Ne.symm (Finset.ne_of_mem_erase hj))]
  rw [hrest]
  omega

/-- Whether an entry lists a group. -/
def Entry.lists (x : Entry) (g : Group) : Bool := x.groupA = some g || x.groupB = some g

theorem Entry.lists_iff (x : Entry) (g : Group) : x.lists g = true ↔ g ∈ presentGroups x.groupA x.groupB := by
  simp only [Entry.lists, Bool.or_eq_true, decide_eq_true_eq, presentGroups, List.mem_append, Option.mem_toList]

theorem State.slotLists_eq (s : State) (a : AntennaNo) (g : Group) (sl : SlotNo) :
    s.slotLists a g sl = ((s.slot a sl).entry?.bind s.entry).any (·.lists g) := by
  unfold State.slotLists
  cases (s.slot a sl).entry?.bind s.entry <;> rfl

theorem State.slotLists_free (h : s.slot a sl = .free) (g : Group) : s.slotLists a g sl = false := by
  rw [State.slotLists_eq, h]; rfl

theorem State.slotLists_held (h : (s.slot a sl).entry? = some e) (he : s.entry e = some x) (g : Group) :
    s.slotLists a g sl = x.lists g := by
  rw [State.slotLists_eq, h, Option.bind_some, he]; rfl

/-- The lanes go on counting what they counted while slots keep their beltpacks, and those their groups. -/
theorem LanesCount.of (h : LanesCount w s) (hl : ∀ a, w ≠ some a → (t.ant a).lanes = (s.ant a).lanes)
    (hs : ∀ a sl, w ≠ some a → (t.slot a sl).entry? = (s.slot a sl).entry?)
    (he : ∀ e, (t.entry e).map (fun x => (x.groupA, x.groupB)) = (s.entry e).map fun x => (x.groupA, x.groupB)) :
    LanesCount w t := by
  intro a g ha
  have hlists : t.slotLists a g = s.slotLists a g := by
    funext sl
    rw [State.slotLists_eq, State.slotLists_eq, hs a sl ha]
    cases (s.slot a sl).entry? with
    | none => rfl
    | some e =>
      have hany : ∀ o : Option Entry, o.any (·.lists g) =
          (o.map fun x => (x.groupA, x.groupB)).any fun k => k.1 = some g || k.2 = some g := by
        intro o; cases o <;> rfl
      rw [Option.bind_some, Option.bind_some, hany, hany, he e]
  rw [hl a ha, hlists]
  exact h a g ha

/-! ### Steps that change one place of a store -/

/-- Nothing of the stores changed but the link and the like. -/
theorem WorkStep.kept (hr : t.roster = s.roster := by rfl) (hc : t.contexts = s.contexts := by rfl)
    (ha : t.antennas = s.antennas := by rfl) (hp : t.ports = s.ports := by rfl) (hq : t.queue = s.queue := by rfl) :
    WorkStep w e none s t := by
  have hslot (a : AntennaNo) (sl : SlotNo) : t.slot a sl = s.slot a sl := by rw [State.slot, State.ant, ha]; rfl
  have hentry (e : EntryNo) : t.entry e = s.entry e := by rw [State.entry, hr]; rfl
  refine ⟨⟨fun e' _ => hentry e', fun c _ => by rw [State.ctx, hc]; rfl, fun _ _ h => (nomatch h), fun _ _ h => (nomatch h), fun a sl v e' _ _ => by rw [hslot],
    fun c _ a => by rw [State.port, hp]; rfl, fun e' _ => by rw [HasRequest, hq]; exact id⟩, fun h => ?_, by rw [hq]; exact id, fun _ h => (nomatch h)⟩
  exact h.of (fun a _ => by rw [State.ant, ha]; rfl) (fun a sl _ => by rw [hslot]) fun e => by rw [hentry]

theorem WorkStep.refl (s : State) : WorkStep w e none s s := .kept

/-- A step that changes no context is one of a context of the beltpack as well. -/
theorem WorkStep.owning (h : WorkStep w e none s t) (hy : s.ctx c = some y) (hye : y.entry = e) : WorkStep w e (some c) s t where
  entries := h.entries
  contexts c' _ := h.contexts c' nofun
  own c' y' hc hy' := by
    obtain rfl := Option.some.inj hc
    obtain rfl := Option.some.inj (hy.symm.trans hy'); exact hye
  owned c' y' hc hy' := by
    obtain rfl := Option.some.inj hc
    rw [h.contexts c nofun, hy] at hy'
    obtain rfl := Option.some.inj hy'; exact hye
  slots := h.slots
  orders c' _ := h.orders c' nofun
  requests := h.requests
  lanes := h.lanes
  one := h.one
  freed c' hc _ hn := by
    obtain rfl := Option.some.inj hc
    rw [h.contexts c nofun, hy] at hn; cases hn

/-- The entry of the beltpack changed, with its groups kept. -/
theorem workStep_mapEntry (s : State) (e : EntryNo) {f : Entry → Entry}
    (hf : ∀ x, (f x).groupA = x.groupA ∧ (f x).groupB = x.groupB) : WorkStep w e none s (s.mapEntry e f) where
  entries e' he := State.entry_mapEntry_ne _ _ (Ne.symm he)
  contexts c _ := State.ctx_mapEntry _ _ _ _
  own := fun _ _ h => (nomatch h)
  owned := fun _ _ h => (nomatch h)
  slots a sl v e' _ _ := by rw [State.slot, State.ant_mapEntry]; rfl
  orders c _ a := by rw [State.port_mapEntry]
  requests e' _ := by rw [HasRequest, State.mapEntry_queue]; exact id
  lanes h := h.of (fun a _ => by rw [State.ant_mapEntry]) (fun a sl _ => by rw [State.slot, State.ant_mapEntry]; rfl) fun e' => by
    by_cases he : e = e'
    · subst he
      rw [State.entry_mapEntry_self, Option.map_map]
      refine congrArg (Option.map · (s.entry e)) (funext fun x => ?_)
      obtain ⟨h1, h2⟩ := hf x
      simp only [Function.comp, h1, h2]
    · rw [State.entry_mapEntry_ne _ _ he]
  one h := by rw [State.mapEntry_queue]; exact h
  freed := fun _ h => (nomatch h)

theorem State.ctx_putCtx_none (s : State) (c : ContextNo) : (s.putCtx c none).ctx c = none := get_set_self _ _ _

/-- The context of the beltpack written. -/
theorem workStep_putCtx {v : Option Context} (hs : ∀ y, s.ctx c = some y → y.entry = e) (hv : ∀ y, v = some y → y.entry = e)
    (hu : v = none → Unawaited s c) : WorkStep w e (some c) s (s.putCtx c v) where
  entries e' _ := rfl
  contexts c' hc := State.ctx_putCtx_ne _ _ fun h => hc (congrArg some h)
  own c' y hc hy := by obtain rfl := Option.some.inj hc; exact hs y hy
  owned c' y hc hy := by
    obtain rfl := Option.some.inj hc
    exact hv y ((State.ctx_putCtx_self _ _ _).symm.trans hy)
  slots a sl v' e' _ _ := .rfl
  orders c' _ a := rfl
  requests e' _ h := h
  lanes h := h.of (fun _ _ => rfl) (fun _ _ _ => rfl) fun _ => rfl
  one h := h
  freed c' hc _ hn := by
    obtain rfl := Option.some.inj hc
    exact hu ((State.ctx_putCtx_self _ _ _).symm.trans hn)

theorem workStep_mapCtx (hy : s.ctx c = some y) (hye : y.entry = e) {f : Context → Context} (hf : (f y).entry = y.entry) :
    WorkStep w e (some c) s (s.mapCtx c f) := by
  rw [State.mapCtx, hy]
  refine workStep_putCtx (fun y' hy' => ?_) (fun y' hy' => ?_) nofun
  · obtain rfl := Option.some.inj (hy.symm.trans hy'); exact hye
  · obtain rfl := Option.some.inj hy'; exact hf.trans hye

/-- A port changed, with its orders kept. -/
theorem workStep_mapPort (s : State) (a : AntennaNo) {f : Port → Port}
    (hf : ∀ c, (f (s.port a)).awaitedBy c = (s.port a).awaitedBy c) : WorkStep w e none s (s.mapPort a f) where
  entries e' _ := rfl
  contexts c _ := rfl
  own := fun _ _ h => (nomatch h)
  owned := fun _ _ h => (nomatch h)
  slots a sl v e' _ _ := .rfl
  orders c _ b := by
    rw [State.awaitedBy_mapPort]
    split
    next h => rw [hf, h]
    next => rfl
  requests e' _ h := h
  lanes h := h.of (fun _ _ => rfl) (fun _ _ _ => rfl) fun _ => rfl
  one h := h
  freed := fun _ h => (nomatch h)

/-- A port changed, in the orders of a context of the beltpack alone. -/
theorem workStep_mapPort_own (hy : s.ctx c = some y) (hye : y.entry = e) (a : AntennaNo) {f : Port → Port}
    (hf : ∀ c', c' ≠ c → (f (s.port a)).awaitedBy c' = (s.port a).awaitedBy c') : WorkStep w e (some c) s (s.mapPort a f) where
  entries e' _ := rfl
  contexts c _ := rfl
  own c' y' hc hy' := by
    obtain rfl := Option.some.inj hc
    obtain rfl := Option.some.inj (hy.symm.trans hy'); exact hye
  owned c' y' hc hy' := by
    obtain rfl := Option.some.inj hc
    obtain rfl := Option.some.inj (hy.symm.trans hy'); exact hye
  slots a sl v e' _ _ := .rfl
  orders c' hc b := by
    rw [State.awaitedBy_mapPort]
    split
    next h => rw [hf c' fun h => hc (congrArg some h.symm), h]
    next => rfl
  requests e' _ h := h
  lanes h := h.of (fun _ _ => rfl) (fun _ _ _ => rfl) fun _ => rfl
  one h := h
  freed c' hc _ hn := by
    obtain rfl := Option.some.inj hc
    exact absurd (hy.symm.trans hn) nofun

theorem workStep_beginExchange (s : State) (a : AntennaNo) : WorkStep w e none s (s.beginExchange a) :=
  workStep_mapPort s a fun c => Port.awaitedBy_congr (Port.unanswered_begin _ _ _ _) c

/-- An order of no context is posted. -/
theorem workStep_postOrder (s : State) (a : AntennaNo) (ho : ∀ c, o.poster ≠ .context c) :
    WorkStep w e none s (s.postOrder a o) :=
  (workStep_mapPort s a fun c => by rw [Port.awaitedBy_post, if_neg (ho c), List.append_nil]).trans
    (workStep_beginExchange _ a)

/-- The context of the beltpack posts an order. -/
theorem workStep_postOrder_own (hy : s.ctx c = some y) (hye : y.entry = e) (a : AntennaNo) (ho : o.poster = .context c) :
    WorkStep w e (some c) s (s.postOrder a o) :=
  (workStep_mapPort_own hy hye a fun c' hc => by
    rw [Port.awaitedBy_post, ho, if_neg fun h => hc (Poster.context.inj h).symm, List.append_nil]).trans
    ((workStep_beginExchange _ a).owning (s := s.mapPort a (·.post o)) hy hye)

/-- The queue changed in requests of the beltpack, or by the loss of others. -/
theorem workStep_queue (hrest : t = { s with queue := t.queue, nextOrder := t.nextOrder })
    (hq : ∀ e', e' ≠ e → HasRequest t e' → HasRequest s e') (ho : OneEach s.queue → OneEach t.queue) : WorkStep w e none s t := by
  have hk : WorkStep w e none s { s with queue := t.queue, nextOrder := t.nextOrder } :=
    ⟨⟨fun _ _ => rfl, fun _ _ => rfl, fun _ _ h => (nomatch h), fun _ _ h => (nomatch h), fun _ _ _ _ _ _ => .rfl, fun _ _ _ => rfl, hq⟩,
      fun h => h.of (fun _ _ => rfl) (fun _ _ _ => rfl) fun _ => rfl, ho, fun _ h => (nomatch h)⟩
  exact hrest ▸ hk

theorem OneEach.sublist {q q' : List Request} (h : OneEach q) (hs : q'.Sublist q) : OneEach q' := List.Pairwise.sublist hs h

theorem workStep_removeRequest (s : State) (e : EntryNo) {e₁ : EntryNo} : WorkStep w e₁ none s (s.removeRequest e) :=
  workStep_queue rfl (fun _ _ ⟨r, hr, hre⟩ => ⟨r, List.mem_of_mem_filter hr, hre⟩) fun h => h.sublist List.filter_sublist

theorem OneEach.place {q : List Request} (h : OneEach q) {r : Request} (hr : ∀ r' ∈ q, r'.entry ≠ r.entry) :
    OneEach (placeRequest r q) :=
  ((placeRequest_perm r q).pairwise_iff fun hne => hne.symm).mpr
    (List.pairwise_cons.mpr ⟨fun r' hr' => (hr r' hr').symm, h⟩)

/-- A request of the beltpack placed in a queue that has none of it. -/
theorem workStep_place {r : Request} {q : List Request} (hq : t.queue = placeRequest r q) (hr : r.entry = e)
    (hsub : q.Sublist s.queue) (hno : ∀ r' ∈ q, r'.entry ≠ e) (hrest : t = { s with queue := t.queue, nextOrder := t.nextOrder }) :
    WorkStep w e none s t := by
  refine workStep_queue hrest (fun e' he ⟨r', hr', hre⟩ => ?_) fun h => hq ▸ (h.sublist hsub).place (hr ▸ hno)
  rw [hq] at hr'
  rcases List.mem_cons.mp ((placeRequest_perm r q).mem_iff.mp hr') with rfl | hr'
  · exact absurd (hre.symm.trans hr) he
  · exact ⟨r', hsub.subset hr', hre⟩

theorem mem_dropRequest {r : Request} {q : List Request} : r ∈ dropRequest e q ↔ r ∈ q ∧ r.entry ≠ e := by
  rw [dropRequest_eq, List.mem_filter]; simp

theorem workStep_enqueue {r : Request} (hr : r.entry = e) (hno : ¬ HasRequest s e) : WorkStep w e none s (s.enqueue r) :=
  workStep_place (State.enqueue_queue _ _) hr (.refl _) (fun r' hr' he => hno ⟨r', hr', he⟩) rfl

theorem workStep_raiseRequest (s : State) (e : EntryNo) (v : Raise) : WorkStep w e none s (s.raiseRequest e v) := by
  cases he : s.entry e with
  | none => rw [State.raiseRequest, he]; exact .refl s
  | some x =>
    by_cases hc : x.context = none
    · cases hr : s.requestOf e with
      | some r =>
        rw [State.raiseRequest_merge he hc hr]
        have hre := (State.requestOf_some hr).2
        exact workStep_place rfl ((Request.merge_entry r v).trans hre) List.filter_sublist
          (fun r' hr' => hre ▸ (mem_dropRequest.mp hr').2) rfl
      | none =>
        have hno := State.requestOf_none.mp hr
        by_cases hn : s.queue.length < 16
        · rw [State.raiseRequest_enters he hc hr hn]
          exact workStep_enqueue rfl hno
        · rw [State.raiseRequest_full he hc hr hn]
          cases hl : s.queue.getLast? with
          | none => rw [State.raiseIntoFull, hl]; exact .refl s
          | some last =>
            rw [State.raiseIntoFull_eq hl]
            split
            · refine (workStep_removeRequest s last.entry).trans (workStep_enqueue rfl fun ⟨r, hr, hre⟩ => hno ⟨r, ?_, hre⟩)
              exact (mem_dropRequest.mp hr).1
            · exact .refl s
    · rw [State.raiseRequest_busy he hc]; exact .refl s

/-! ### Steps at a slot of the beltpack -/

theorem State.lanes_setSlot (s : State) (a b : AntennaNo) (sl : SlotNo) (v : Slot) :
    ((s.setSlot a sl v).ant b).lanes = (s.ant b).lanes := by rw [State.ant_setSlot]

/-- A slot of the beltpack, or a Free one, written with one of the beltpack or Free: nothing changes beside. -/
theorem beside_setSlot {v : Slot} (hs : ∀ e', (s.slot a sl).entry? = some e' → e' = e) (hv : ∀ e', v.entry? = some e' → e' = e) :
    Beside e none s (s.setSlot a sl v) where
  entries _ _ := rfl
  contexts _ _ := rfl
  own := fun _ _ h => (nomatch h)
  owned := fun _ _ h => (nomatch h)
  slots b sl' v' e' hv' hne := by
    rw [State.slot_setSlot]
    split
    next h =>
      obtain ⟨rfl, rfl⟩ := h
      exact ⟨fun h => absurd (hv e' (h ▸ hv')) hne, fun h => absurd (hs e' (by rw [h]; exact hv')) hne⟩
    next => rfl
  orders _ _ _ := rfl
  requests _ _ h := h

/-- A slot of the beltpack changes its state. -/
theorem workStep_setSlot {v : Slot} (hs : (s.slot a sl).entry? = some e) (hv : v.entry? = some e) :
    WorkStep w e none s (s.setSlot a sl v) where
  toBeside := beside_setSlot (fun _ h => Option.some.inj (h.symm.trans hs)) fun _ h => Option.some.inj (h.symm.trans hv)
  lanes h := h.of (fun b _ => s.lanes_setSlot a b sl v) (fun b sl' _ => by
    rw [State.slot_setSlot]
    split
    next h => rw [hv, ← h.1, ← h.2, hs]
    next => rfl) fun _ => rfl
  one h := h
  freed := fun _ h => (nomatch h)

/-- A slot of the swept antenna is freed. -/
theorem workStep_sweptSlot (hs : (s.slot a sl).entry? = some e) : WorkStep (some a) e none s (s.setSlot a sl .free) where
  toBeside := beside_setSlot (fun _ h => Option.some.inj (h.symm.trans hs)) nofun
  lanes h := h.of (fun b _ => s.lanes_setSlot a b sl .free) (fun b sl' hb => by
    rw [State.slot_setSlot, if_neg fun h => hb (congrArg some h.1)]) fun _ => rfl
  one h := h
  freed := fun _ h => (nomatch h)

/-- A slot and the lanes of an antenna written. -/
theorem State.slot_written (s : State) (a b : AntennaNo) (sl sl' : SlotNo) (v : Slot) (l : Lanes) :
    (State.slot { s with antennas := s.antennas.set a { s.ant a with slots := (s.ant a).slots.set sl v, lanes := l } } b sl' =
      if a = b ∧ sl = sl' then v else s.slot b sl') := by
  rw [← State.slot_setSlot s a b sl sl' v]
  by_cases h : a = b
  · subst h
    simp only [State.slot, State.setSlot, State.mapAnt, State.ant, get_set_self]
  · simp only [State.slot, State.setSlot, State.mapAnt, State.ant, get_set_ne _ _ h]

theorem State.lanes_written (s : State) (a b : AntennaNo) (sl : SlotNo) (v : Slot) (l : Lanes) :
    (State.ant { s with antennas := s.antennas.set a { s.ant a with slots := (s.ant a).slots.set sl v, lanes := l } } b).lanes =
      if a = b then l else (s.ant b).lanes := by
  split
  next h => subst h; simp only [State.ant, get_set_self]
  next h => simp only [State.ant, get_set_ne _ _ h]

/-- A slot taken or given up, with the lanes counted anew. -/
theorem LanesCount.written (h : LanesCount w s) {v : Slot} {l : Lanes}
    (hl : ∀ g, laneUsers l g + (s.slotLists a g sl).toNat = laneUsers (s.ant a).lanes g + ((v.entry?.bind s.entry).any (·.lists g)).toNat) :
    LanesCount w { s with antennas := s.antennas.set a { s.ant a with slots := (s.ant a).slots.set sl v, lanes := l } } := by
  intro b g hb
  generalize ht : ({ s with antennas := s.antennas.set a { s.ant a with slots := (s.ant a).slots.set sl v, lanes := l } } : State) = t
  have hslot (b : AntennaNo) (sl' : SlotNo) : t.slot b sl' = if a = b ∧ sl = sl' then v else s.slot b sl' :=
    ht ▸ s.slot_written a b sl sl' v l
  have hlists (b : AntennaNo) (sl' : SlotNo) : t.slotLists b g sl' = ((t.slot b sl').entry?.bind s.entry).any (·.lists g) := by
    rw [State.slotLists_eq, ← ht]; rfl
  have hlanes : (t.ant b).lanes = if a = b then l else (s.ant b).lanes := ht ▸ s.lanes_written a b sl v l
  rw [hlanes]
  by_cases hab : a = b
  · subst hab
    have hcount := countOf_change (f := s.slotLists a g) (g := t.slotLists a g) sl fun j hj => by
      rw [hlists, hslot, if_neg fun h => hj h.2, State.slotLists_eq]
    rw [hlists a sl, hslot, if_pos ⟨rfl, rfl⟩] at hcount
    have := hl g
    have := h a g hb
    rw [if_pos rfl]
    omega
  · rw [if_neg hab, h b g hb]
    refine congrArg countOf (funext fun sl' => ?_)
    rw [hlists, hslot, if_neg fun h => hab h.1, State.slotLists_eq]

theorem beside_written {v : Slot} (l : Lanes) (hs : ∀ e', (s.slot a sl).entry? = some e' → e' = e)
    (hv : ∀ e', v.entry? = some e' → e' = e) : Beside e none s
      { s with antennas := s.antennas.set a { s.ant a with slots := (s.ant a).slots.set sl v, lanes := l } } := by
  have hb := beside_setSlot hs hv
  exact ⟨fun _ _ => rfl, fun _ _ => rfl, fun _ _ h => (nomatch h), fun _ _ h => (nomatch h), fun b sl' v' e' hv' hne => by
    rw [State.slot_written, ← State.slot_setSlot]; exact hb.slots b sl' v' e' hv' hne, fun _ _ _ => rfl, fun _ _ h => h⟩

/-- A Free slot is claimed for the beltpack, where its groups have room (R46, R47). -/
theorem workStep_claim (he : s.entry e = some x) (hf : s.slot a sl = .free) (hst : StoresInOrder s)
    (hroom : Lanes.RoomForAll (s.ant a).lanes (presentGroups x.groupA x.groupB)) :
    WorkStep w e none s (s.claim a sl e (presentGroups x.groupA x.groupB)) := by
  rw [State.claim_eq]
  refine ⟨beside_written _ (by rw [hf]; nofun) fun e' h => (Option.some.inj h).symm, fun h => h.written fun g => ?_, id, fun _ h => (nomatch h)⟩
  rw [((hst.antennas a).2.2.countAll (hst.entries e x he).nodup hroom).2.1, State.slotLists_free hf]
  simp only [Slot.entry?, Option.bind_some, he, Option.any_some, Bool.toNat_false, Nat.add_zero]
  by_cases hg : g ∈ presentGroups x.groupA x.groupB
  · rw [if_pos hg, (x.lists_iff g).mpr hg]; rfl
  · rw [if_neg hg, Bool.eq_false_iff.mpr (mt (x.lists_iff g).mp hg)]; rfl

/-- A slot of the beltpack is freed, and its groups are uncounted (R51). -/
theorem workStep_freeSlot (he : s.entry e = some x) (hs : (s.slot a sl).entry? = some e) (hst : StoresInOrder s) :
    WorkStep w e none s (s.freeSlot a sl) := by
  have hmin (h : LanesCount w s) (ha : w ≠ some a) (g : Group) (hg : x.lists g = true) : 1 ≤ laneUsers (s.ant a).lanes g := by
    rw [h a g ha]
    refine List.length_pos_of_mem (a := sl) (List.mem_filter.mpr ⟨List.mem_finRange _, ?_⟩)
    rw [State.slotLists_held hs he]; exact hg
  rw [State.freeSlot_held he hs]
  refine ⟨beside_written _ (fun e' h => Option.some.inj (h.symm.trans hs)) nofun, fun h => ?_, id, fun _ h => (nomatch h)⟩
  by_cases ha : w = some a
  · subst ha
    refine h.of (fun b hb => ?_) (fun b sl' hb => ?_) fun _ => rfl
    · rw [State.lanes_written, if_neg fun hab => hb (congrArg some hab)]
    · rw [State.slot_written, if_neg fun hab => hb (congrArg some hab.1)]
  · refine h.written fun g => ?_
    have huncount := ((hst.antennas a).2.2.uncountAll (hst.entries e x he).nodup).2.1 g
    rw [State.slotLists_held hs he]
    simp only [Slot.entry?, Option.bind_none, Option.any_none, Bool.toNat_false, Nat.add_zero]
    by_cases hg : x.lists g = true
    · have := hmin h ha g hg
      rw [if_pos ((x.lists_iff g).mp hg), Nat.min_eq_left this] at huncount
      rw [hg]; exact huncount
    · rw [if_neg (mt (x.lists_iff g).mpr hg)] at huncount
      rw [Bool.eq_false_iff.mpr hg]; exact huncount

end Sys2Proof.Machine
end

section
/-! Every step keeps transactions in order, part three: the work on a transaction that has lost its order or its slot: giving up the attempt, ending the transaction, trying a target, and every disposal. -/

namespace Sys2Proof.Machine

variable {s t u : State} {a b : AntennaNo} {sl : SlotNo} {e e' : EntryNo} {x x' : Entry} {c c' : ContextNo} {y y' : Context}
  {w : Option AntennaNo} {oc : Option ContextNo} {o : Order} {sv sv' : Option (AntennaNo × SlotNo)}

/-! ### What a change leaves true of its own beltpack -/

theorem Holding.of_slots (h : Holding s e sv) (hs : ∀ a sl, t.slot a sl = s.slot a sl) : Holding t e sv where
  once a sl sl' := by simpa only [Holds, hs] using h.once a sl sl'
  occupied a sl := by rw [hs]; exact h.occupied a sl

/-- Slots given up, and the Occupied one told anew. -/
theorem Holding.of (h : Holding s e sv) (hh : ∀ a sl, Holds t a sl e → Holds s a sl e)
    (ho : ∀ a sl, t.slot a sl = .occupied e ↔ sv' = some (a, sl)) : Holding t e sv' where
  once a sl sl' h1 h2 := h.once a sl sl' (hh a sl h1) (hh a sl' h2)
  occupied := ho

/-- Two entries that agree in what the transactions read. -/
structure Entry.Alike (x' x : Entry) : Prop where
  state : x'.state = x.state
  serving : x'.serving = x.serving
  context : x'.context = x.context
  settle : x'.settleTimer = x.settleTimer
  lost : x'.lostTimer = x.lostTimer
  window : x'.windowExpired = x.windowExpired

theorem Entry.Alike.refl (x : Entry) : x.Alike x := ⟨rfl, rfl, rfl, rfl, rfl, rfl⟩

theorem Timed.alike (h : Timed x) (hx : x'.Alike x) : Timed x' :=
  ⟨by rw [hx.settle, hx.state]; exact h.settle, by rw [hx.lost, hx.state]; exact h.lost,
    by rw [hx.window, hx.state]; exact h.window⟩

theorem Context.fits_of (h : y.fits x) (hk : y'.kind = y.kind) (hs : y'.source = y.source)
    (hp : y'.phase = .release ↔ y.phase = .release) (hst : x'.state = x.state) (hsv : x'.serving = x.serving) : y'.fits x' := by
  have hp' : (y'.phase = .release) = (y.phase = .release) := propext hp
  unfold Context.fits at h ⊢
  simpa only [hst, hk, hs, hsv, ne_eq, hp'] using h

/-- A change that keeps the slots, and of the transaction the kind, the source and whether it is in its Release phase. -/
theorem Busy.change (h : Busy s e x c y) (he : t.entry e = some x') (hc : t.ctx c = some y')
    (hrest : ∀ c', c' ≠ c → t.ctx c' = s.ctx c') (hs : ∀ a sl, t.slot a sl = s.slot a sl) (hq : HasRequest t e → HasRequest s e)
    (hx : x'.Alike x) (hm : y'.entry = y.entry) (hk : y'.kind = y.kind) (hsrc : y'.source = y.source)
    (hp : y'.phase = .release ↔ y.phase = .release)
    (hres : ∀ a sl, s.slot a sl = .reserved e → y'.target = some a ∧ y'.targetSlot = some sl) : Busy t e x' c y' where
  entry := he
  timed := h.timed.alike hx
  context := hx.context.trans h.context
  ctx := hc
  mine := hm.trans h.mine
  only c' y'' hy' hye := by
    by_contra hne
    exact hne (h.only c' y'' ((hrest c' hne).symm.trans hy') hye)
  unasked hq' := h.unasked (hq hq')
  fits := Context.fits_of h.fits hk hsrc hp hx.state hx.serving
  source := by rw [hsrc, hk]; exact h.source
  releasing hr b sl hs' := (hs b sl).trans (h.releasing (hp.mp hr) b sl (hsrc.symm.trans hs'))
  holding := hx.serving ▸ h.holding.of_slots hs
  reserved a sl hr := by
    rw [hs] at hr
    obtain ⟨h1, h2⟩ := hres a sl hr
    exact ⟨h1, h2, fun hp' => (h.reserved a sl hr).2.2 (hp.mp hp')⟩

/-- Nothing of the stores changed. -/
theorem Busy.kept (h : Busy s e x c y) (he : t.entry e = s.entry e) (hc : ∀ c, t.ctx c = s.ctx c)
    (hs : ∀ a sl, t.slot a sl = s.slot a sl) (hq : HasRequest t e → HasRequest s e) : Busy t e x c y :=
  h.change (he.trans h.entry) ((hc c).trans h.ctx) (fun c' _ => hc c') hs hq (.refl x) rfl rfl rfl .rfl fun a sl hr =>
    ⟨(h.reserved a sl hr).1, (h.reserved a sl hr).2.1⟩

/-! ### A state at rest, and one at work -/

/-- The swept antenna is not open. -/
def SweptClosed (w : Option AntennaNo) (s : State) : Prop := ∀ a, w = some a → (s.ant a).open = false

theorem SweptClosed.worked (h : SweptClosed w s) (ht : Worked s t) : SweptClosed w t := fun a ha => by
  rw [Antenna.open_of_record (ht.records a)]; exact h a ha

/-- All beltpacks agree, and the stores are in order. -/
structure Sound (w : Option AntennaNo) (s : State) : Prop where
  stores : StoresInOrder s
  closed : SweptClosed w s
  agree : AgreeBut none w s

/-- The transaction of one beltpack is worked on: it may have lost its order or its target slot. -/
structure Running (w : Option AntennaNo) (s : State) (e : EntryNo) (x : Entry) (c : ContextNo) (y : Context) : Prop where
  stores : StoresInOrder s
  closed : SweptClosed w s
  rest : AgreeBut (some e) w s
  busy : Busy s e x c y
  posted : ∀ a, (s.port a).awaitedBy c ≠ [] → ∃ v, y.awaited = some v ∧ v.port = a

/-- The transaction is worked on before its Arrival. -/
structure Working (w : Option AntennaNo) (s : State) (e : EntryNo) (x : Entry) (c : ContextNo) (y : Context) : Prop
    extends Running w s e x c y where
  early : y.phase ≠ .release

/-- A step of the work that leaves the slots and the orders. -/
theorem Working.step (h : Working w s e x c y) (hstep : WorkStep w e (some c) s t) (hst : StoresInOrder t) (hw : Worked s t)
    (hb : Busy t e x' c y') (hp : y'.phase ≠ .release)
    (ho : ∀ a, (t.port a).awaitedBy c ≠ [] → ∃ v, y'.awaited = some v ∧ v.port = a) : Working w t e x' c y' :=
  ⟨⟨hst, h.closed.worked hw, h.rest.step hstep, hb, ho⟩, hp⟩

/-- The work ends with the beltpack's transaction aimed. -/
theorem Working.aimed (h : Working w s e x c y) (hstep : WorkStep w e (some c) s t) (hst : StoresInOrder t) (hw : Worked s t)
    (hb : Busy t e x' c y') (ha : Aimed w t e c y') : Sound w t :=
  ⟨hst, h.closed.worked hw, (h.rest.step hstep).done (.busy hb ha)⟩

/-- The work ends with the transaction. -/
theorem Working.idle (h : Working w s e x c y) (hstep : WorkStep w e (some c) s t) (hst : StoresInOrder t) (hw : Worked s t)
    (hi : Idle t e x') : Sound w t :=
  ⟨hst, h.closed.worked hw, (h.rest.step hstep).done (.idle hi)⟩

/-! ### Giving up the attempt (R52, R105, R106) -/

theorem State.awaitedBy_releaseSlot (s : State) (a b : AntennaNo) (sl : SlotNo) (c : ContextNo) :
    ((s.releaseSlot a sl).port b).awaitedBy c = (s.port b).awaitedBy c := by
  have hpost (v : Slot) (id : BeltpackId) :
      (((s.setSlot a sl v).postOrder a ⟨.release, id, sl, .slot sl⟩).port b).awaitedBy c = (s.port b).awaitedBy c := by
    rw [State.awaitedBy_postOrder, if_neg fun h => nomatch h.2]
    exact List.append_nil _
  unfold State.releaseSlot
  split
  · split
    · rfl
    · exact hpost _ _
  · split
    · rfl
    · exact hpost _ _
  · rfl
  · rfl

/-- A held slot of a beltpack goes to Releasing, and no other slot changes. -/
theorem State.slot_releaseSlot (he : s.entry e = some x) (h : s.slot a sl = .reserved e ∨ s.slot a sl = .occupied e)
    (b : AntennaNo) (sl' : SlotNo) :
    (s.releaseSlot a sl).slot b sl' = if a = b ∧ sl = sl' then .releasing e else s.slot b sl' := by
  rw [State.releaseSlot_held he h, ← State.slot_setSlot]
  rfl

theorem workStep_releaseSlot (hs : (s.slot a sl).entry? = some e) : WorkStep w e none s (s.releaseSlot a sl) := by
  have hpost (id : BeltpackId) : WorkStep w e none s
      ((s.setSlot a sl (.releasing e)).postOrder a ⟨.release, id, sl, .slot sl⟩) :=
    (workStep_setSlot hs rfl).trans (workStep_postOrder _ _ fun c h => nomatch h)
  unfold State.releaseSlot
  split
  next e' h =>
    obtain rfl : e' = e := Option.some.inj ((congrArg Slot.entry? h).symm.trans hs)
    split
    · exact .refl s
    · exact hpost _
  next e' h =>
    obtain rfl : e' = e := Option.some.inj ((congrArg Slot.entry? h).symm.trans hs)
    split
    · exact .refl s
    · exact hpost _
  next => exact .refl s
  next => exact .refl s

theorem workStep_stopAwaiting (hy : s.ctx c = some y) (hye : y.entry = e) : WorkStep w e (some c) s (s.stopAwaiting c) := by
  unfold State.stopAwaiting
  rw [hy]
  simp only
  split
  · exact (WorkStep.refl s).owning hy hye
  · have hport := workStep_mapPort_own (w := w) hy hye (‹Awaited› : Awaited).port (f := (·.leave c)) fun c' hc => by
      rw [Port.awaitedBy_leave, if_neg (Ne.symm hc)]
    exact hport.trans (workStep_mapCtx (s := s.mapPort _ _) hy hye rfl)

/-- A context that has stopped waiting awaits no order. -/
theorem unawaited_stopAwaiting (hy : s.ctx c = some y) (ho : ∀ a, (s.port a).awaitedBy c ≠ [] → ∃ v, y.awaited = some v ∧ v.port = a) :
    Unawaited (s.stopAwaiting c) c := by
  intro a
  cases hv : y.awaited with
  | none =>
    rw [State.stopAwaiting_none hy hv]
    by_contra hne
    obtain ⟨v, hv', -⟩ := ho a hne
    rw [hv] at hv'; cases hv'
  | some v =>
    have hport : ((s.stopAwaiting c).port a).awaitedBy c = if v.port = a then [] else (s.port a).awaitedBy c := by
      rw [State.stopAwaiting_some hy hv]
      refine (s.awaitedBy_mapPort v.port a (·.leave c) c).trans ?_
      rw [Port.awaitedBy_leave, if_pos rfl]
    rw [hport]
    split
    · rfl
    next hne =>
      by_contra hne'
      obtain ⟨v', hv', hp⟩ := ho a hne'
      obtain rfl := Option.some.inj (hv.symm.trans hv')
      exact hne hp

section
variable (h : Running w s e x c y)
include h

/-- The slot that giving up releases is the only Reserved one of the beltpack. -/
theorem Running.giveUp_slot (a : AntennaNo) (sl : SlotNo) :
    (s.giveUpAttempt c).slot a sl = if s.slot a sl = .reserved e then .releasing e else s.slot a sl := by
  have hy := h.busy.ctx
  have hm := h.busy.mine
  have hstop (a : AntennaNo) (sl : SlotNo) : (s.stopAwaiting c).slot a sl = s.slot a sl := by
    rw [State.stopAwaiting_eq hy]; rfl
  by_cases hr : ∃ a sl, y.target = some a ∧ y.targetSlot = some sl ∧ s.slot a sl = .reserved y.entry
  · obtain ⟨b, bsl, ht, hs, hr⟩ := hr
    have he : (s.stopAwaiting c).entry e = some x := by rw [State.stopAwaiting_eq hy]; exact h.busy.entry
    have hread := State.slot_releaseSlot he (.inl ((hstop b bsl).trans (hm ▸ hr))) a sl
    rw [State.giveUpAttempt_reserved hy ht hs hr]
    refine Eq.trans hread ?_
    rw [hstop]
    by_cases hat : b = a ∧ bsl = sl
    · obtain ⟨rfl, rfl⟩ := hat
      rw [if_pos ⟨rfl, rfl⟩, if_pos (hm ▸ hr)]
    · rw [if_neg hat, if_neg]
      intro hres
      obtain ⟨ht', hs', -⟩ := h.busy.reserved a sl hres
      exact hat ⟨Option.some.inj (ht.symm.trans ht'), Option.some.inj (hs.symm.trans hs')⟩
  · have hnot : ∀ a sl, y.target = some a → y.targetSlot = some sl → s.slot a sl ≠ .reserved y.entry :=
      fun a sl ht hs hr' => hr ⟨a, sl, ht, hs, hr'⟩
    rw [State.giveUpAttempt_not hy hnot]
    refine Eq.trans (hstop a sl) ?_
    rw [if_neg]
    intro hres
    obtain ⟨ht', hs', -⟩ := h.busy.reserved a sl hres
    exact hnot a sl ht' hs' (hm ▸ hres)

theorem Running.giveUp_unawaited : Unawaited (s.giveUpAttempt c) c := by
  have hy := h.busy.ctx
  have hstop := unawaited_stopAwaiting hy h.posted
  intro a
  by_cases hr : ∃ a sl, y.target = some a ∧ y.targetSlot = some sl ∧ s.slot a sl = .reserved y.entry
  · obtain ⟨b, bsl, ht, hs, hr⟩ := hr
    rw [State.giveUpAttempt_reserved hy ht hs hr]
    exact (State.awaitedBy_releaseSlot (s.stopAwaiting c) b a bsl c).trans (hstop a)
  · rw [State.giveUpAttempt_not hy fun a sl ht hs hr' => hr ⟨a, sl, ht, hs, hr'⟩]
    exact hstop a

theorem Running.giveUp_step : WorkStep w e (some c) s (s.giveUpAttempt c) := by
  have hy := h.busy.ctx
  have hm := h.busy.mine
  have h1 := workStep_mapCtx (w := w) hy hm (f := fun y => { y with arrivalTimer := none }) rfl
  have hy1 : (s.mapCtx c fun y => { y with arrivalTimer := none }).ctx c = some { y with arrivalTimer := none } := by
    rw [State.mapCtx_eq hy]; exact get_set_self _ _ _
  have h2 := h1.trans (workStep_stopAwaiting hy1 hm)
  refine h2.trans ?_
  have hs2 : ((s.mapCtx c fun y => { y with arrivalTimer := none }).stopAwaiting c) =
      { s with contexts := s.contexts.set c (some { y with arrivalTimer := none, awaited := none }),
               ports := (s.stopAwaiting c).ports } := State.letGo_eq hy
  have hy2 : ((s.mapCtx c fun y => { y with arrivalTimer := none }).stopAwaiting c).ctx c =
      some { y with arrivalTimer := none, awaited := none } := by rw [hs2]; exact get_set_self _ _ _
  change WorkStep w e (some c) _ (State.undoReservation ((s.mapCtx c fun y => { y with arrivalTimer := none }).stopAwaiting c) c)
  generalize (s.mapCtx c fun y => { y with arrivalTimer := none }).stopAwaiting c = v at hy2
  unfold State.undoReservation
  rw [hy2]
  simp only
  split
  next a sl _ _ =>
    split
    next hr =>
      have hslot : (v.slot a sl).entry? = some e := by rw [hr, ← hm]; rfl
      refine ((workStep_releaseSlot hslot).owning hy2 hm).trans (workStep_mapCtx (y := { y with arrivalTimer := none, awaited := none }) ?_ hm rfl)
      rw [State.releaseSlot_eq]; exact hy2
    next => exact workStep_mapCtx hy2 hm rfl
  next => exact workStep_mapCtx hy2 hm rfl

/-- Giving up leaves a transaction without order and target. -/
theorem Running.giveUp : Running w (s.giveUpAttempt c) e x c y.givenUp := by
  have hslot := h.giveUp_slot
  have hentry : (s.giveUpAttempt c).entry e = some x := (s.giveUpAttempt_entry c e).trans h.busy.entry
  have hother : ∀ c', c' ≠ c → (s.giveUpAttempt c).ctx c' = s.ctx c' := fun c' hc =>
    h.giveUp_step.contexts c' fun heq => hc (Option.some.inj heq).symm
  have hkept {v : Slot} (hv : v ≠ .reserved e) (hv' : v ≠ .releasing e) (a : AntennaNo) (sl : SlotNo) :
      (s.giveUpAttempt c).slot a sl = v ↔ s.slot a sl = v := by
    rw [hslot]
    split
    next hr => rw [hr]; exact ⟨fun h => absurd h.symm hv', fun h => absurd h.symm hv⟩
    next => rfl
  refine ⟨h.stores.giveUpAttempt c, h.closed.worked (s.giveUpAttempt_settled c).toWorked, h.rest.step h.giveUp_step, ?_,
    fun a hne => absurd (h.giveUp_unawaited a) hne⟩
  exact {
    entry := hentry
    timed := h.busy.timed
    context := h.busy.context
    ctx := State.giveUpAttempt_ctx h.busy.ctx
    mine := h.busy.mine
    only := fun c' y' hy' hye => by
      by_contra hne
      exact hne (h.busy.only c' y' ((hother c' hne).symm.trans hy') hye)
    unasked := by rw [HasRequest, State.giveUpAttempt_queue]; exact h.busy.unasked
    fits := Context.fits_of h.busy.fits rfl rfl .rfl rfl rfl
    source := h.busy.source
    releasing := fun hp b bsl hs => by
      rw [hslot]
      split
      · rfl
      · exact h.busy.releasing hp b bsl hs
    holding := h.busy.holding.of (fun a sl hh => by
      rw [Holds, hslot] at hh
      split at hh
      next hr => exact .inl hr
      next => exact hh) fun a sl =>
        (hkept (v := .occupied e) (fun h => nomatch h) (fun h => nomatch h) a sl).trans (h.busy.holding.occupied a sl)
    reserved := fun a sl hr => by
      rw [hslot] at hr
      split at hr
      · cases hr
      next hno => exact absurd hr hno }

end

theorem Working.giveUp (h : Working w s e x c y) : Working w (s.giveUpAttempt c) e x c y.givenUp := ⟨h.toRunning.giveUp, h.early⟩

/-! ### The end of a transaction (R9, R107) -/

theorem Entry.endTransaction_idle (hx : Timed x) (hf : y.fits x) (hp : y.phase ≠ .release) (hin : EntryInOrder x) (ms : Nat) :
    Timed (x.endTransaction y.kind ms) ∧ (x.endTransaction y.kind ms).context = none ∧
      (x.endTransaction y.kind ms).state ≠ .attaching ∧ (x.endTransaction y.kind ms).state ≠ .moving ∧
      (x.endTransaction y.kind ms).windowExpired = false ∧ (x.endTransaction y.kind ms).serving = x.serving := by
  obtain ⟨hsettle, hlost, hwindow⟩ := hx
  have hnone (hst : x.state ≠ .served) (hst' : x.state ≠ .moving) : x.serving = none := by
    by_contra hne
    exact (hin.serving.mp (Option.isSome_iff_ne_none.mpr hne)).elim hst hst'
  have hoff (hsv : x.serving = none) : Timed x.offAir ∧ x.offAir.context = none ∧ x.offAir.state ≠ .attaching ∧
      x.offAir.state ≠ .moving ∧ x.offAir.windowExpired = false ∧ x.offAir.serving = x.serving :=
    ⟨⟨fun h => absurd rfl h, fun h => absurd rfl h, fun h => (nomatch h)⟩, rfl, fun h => (nomatch h), fun h => (nomatch h), rfl, hsv.symm⟩
  have hwin (hst : x.state ≠ .lost) : x.windowExpired = false := Bool.eq_false_iff.mpr fun hw => hst (hwindow hw)
  cases hst : x.state with
  | unattached => rw [Context.fits, hst] at hf; exact hf.elim
  | attaching =>
    have hsv := hnone (by rw [hst]; nofun) (by rw [hst]; nofun)
    have hno : x.settleTimer = none := by
      by_contra hne
      have := hsettle hne
      rw [hst] at this; cases this
    by_cases hk : y.kind = .attach
    · have hend : x.endTransaction y.kind ms = x.offAir := by simp only [Entry.endTransaction, hst, hk]
      rw [hend]
      exact hoff hsv
    · have hend : x.endTransaction y.kind ms = { x with context := none, state := .lost, lostTimer := some ms } := by
        cases hkind : y.kind with
        | attach => exact absurd hkind hk
        | _ => simp only [Entry.endTransaction, hst]
      rw [hend]
      exact ⟨⟨fun h => absurd hno h, fun _ => rfl, fun _ => rfl⟩, rfl, nofun, nofun, hwin (by rw [hst]; nofun), rfl⟩
  | served =>
    rw [Context.fits, hst] at hf
    exact absurd hf.2 hp
  | moving =>
    have hend : x.endTransaction y.kind ms = { x with context := none, state := .served } := by
      simp only [Entry.endTransaction, hst]
    rw [hend]
    have hw := hwin (by rw [hst]; nofun)
    refine ⟨⟨fun _ => rfl, fun h => ?_, fun h => ?_⟩, rfl, nofun, nofun, hw, rfl⟩
    · have := hlost h
      rw [hst] at this; cases this
    · exact absurd (hw.symm.trans h) (by decide)
  | lost =>
    have hend : x.endTransaction y.kind ms = if x.windowExpired then x.offAir else { x with context := none } := by
      simp only [Entry.endTransaction, hst]
    rw [hend]
    split
    · exact hoff (hnone (by rw [hst]; nofun) (by rw [hst]; nofun))
    next hw =>
      have hne {v : RosterState} (hv : v ≠ .lost) : x.state ≠ v := fun h => hv (h.symm.trans hst)
      exact ⟨⟨hsettle, hlost, hwindow⟩, rfl, hne nofun, hne nofun, Bool.eq_false_iff.mpr hw, rfl⟩

theorem WorkStep.owning_none (h : WorkStep w e none s t) (hn : s.ctx c = none) : WorkStep w e (some c) s t where
  entries := h.entries
  contexts c' _ := h.contexts c' nofun
  own c' y hc hy := by obtain rfl := Option.some.inj hc; rw [hn] at hy; cases hy
  owned c' y hc hy := by obtain rfl := Option.some.inj hc; rw [h.contexts c nofun, hn] at hy; cases hy
  slots := h.slots
  orders c' _ := h.orders c' nofun
  requests := h.requests
  lanes := h.lanes
  one := h.one
  freed c' hc hu _ a := by
    obtain rfl := Option.some.inj hc
    rw [h.orders c nofun a]
    exact hu hn a

/-- A transaction that has given up its attempt ends; its request may have gone back to the queue before. -/
theorem Working.finish (h : Working w s e x c y) (haw : y.awaited = none) (hts : y.targetSlot = none)
    (hstep : WorkStep w e none s t) (hst : StoresInOrder t) (hw : Worked s t) (hr : t.roster = s.roster)
    (hc : t.contexts = s.contexts) (ha : t.antennas = s.antennas) (hp : t.ports = s.ports) : Sound w (t.endTransaction c) := by
  have hy : t.ctx c = some y := by rw [State.ctx, hc]; exact h.busy.ctx
  have hm := h.busy.mine
  have hz : t.entry y.entry = some x := by rw [State.entry, hr, hm]; exact h.busy.entry
  have hun : Unawaited t c := fun a => by
    by_contra hne
    rw [State.port, hp] at hne
    obtain ⟨v, hv, -⟩ := h.posted a hne
    rw [haw] at hv; cases hv
  have hend : WorkStep w e (some c) t (t.endTransaction c) := by
    unfold State.endTransaction
    simp only [hy, hz]
    have hput : WorkStep w e (some c) t (t.putCtx c none) :=
      workStep_putCtx (fun y' hy' => by obtain rfl := Option.some.inj (hy.symm.trans hy'); exact hm) (fun _ h => (nomatch h)) fun _ => hun
    refine hput.trans ?_
    have hmap : WorkStep w y.entry none (t.putCtx c none) ((t.putCtx c none).mapEntry y.entry fun z => z.endTransaction y.kind t.lostWindow) :=
      workStep_mapEntry _ _ fun z => by
        have hg := z.endTransaction_given y.kind t.lostWindow
        simp only [Entry.given, Prod.mk.injEq] at hg
        obtain ⟨-, -, hga, hgb, -⟩ := hg
        exact ⟨hga, hgb⟩
    rw [hm] at hmap ⊢
    have hboth := hmap.trans (WorkStep.kept (t := ((t.putCtx c none).mapEntry e fun z => z.endTransaction y.kind t.lostWindow).notifyEnd e x y.kind)
      (by rw [State.notifyEnd_rest]) (by rw [State.notifyEnd_rest]) (by rw [State.notifyEnd_rest]) (by rw [State.notifyEnd_rest])
      (by rw [State.notifyEnd_rest]))
    exact hboth.owning_none (State.ctx_putCtx_none _ _)
  obtain ⟨h1, h2, h3, h4, h5, h6⟩ := Entry.endTransaction_idle h.busy.timed h.busy.fits h.early (h.stores.entries e x h.busy.entry) t.lostWindow
  have hslot (a : AntennaNo) (sl : SlotNo) : (t.endTransaction c).slot a sl = s.slot a sl := by
    rw [State.endTransaction_rest, State.slot, State.ant, ha]; rfl
  refine h.idle ((hstep.owning h.busy.ctx hm).trans hend) (hst.endTransaction c)
    (hw.trans (State.endTransaction_settled t c).toWorked) (x' := x.endTransaction y.kind t.lostWindow) ?_
  refine ⟨?_, h1, h2, ⟨h3, h4⟩, h5, h6 ▸ h.busy.holding.of_slots hslot, fun a sl hr => ?_, fun c' y' hy' hye => ?_⟩
  · rw [State.endTransaction_eq hy hz]; subst hm; exact get_set_self _ _ _
  · rw [hslot] at hr
    have := (h.busy.reserved a sl hr).2.1
    rw [hts] at this; cases this
  · have hctx : (t.endTransaction c).ctx c' = if c = c' then none else s.ctx c' := by
      rw [State.endTransaction_rest, State.ctx_mk, hc]
      split
      next hcc => subst hcc; exact get_set_self _ _ _
      next hcc => exact get_set_ne _ _ hcc
    rw [hctx] at hy'
    split at hy'
    · cases hy'
    next hne => exact hne (h.busy.only c' y' hy' hye).symm

theorem Working.end (h : Working w s e x c y) (haw : y.awaited = none) (hts : y.targetSlot = none) : Sound w (s.endTransaction c) :=
  h.finish haw hts (.refl s) h.stores (.refl s) rfl rfl rfl rfl

end Sys2Proof.Machine
end

section
/-! Every step keeps transactions in order, part four: what leaves every beltpack as it agrees, and the choice of a target and the disposal. -/

namespace Sys2Proof.Machine

variable {s t u : State} {a b : AntennaNo} {sl : SlotNo} {e e' : EntryNo} {x x' : Entry} {c c' : ContextNo} {y y' : Context}
  {w : Option AntennaNo} {oc : Option ContextNo} {f : Entry → Entry} {k : Condition} {found : ConditionSet}

/-! ### A beltpack that agrees as before -/

/-- Nothing changed in what the transactions read of the beltpack, but that it may have a request where it has no
transaction. -/
structure BeltpackKept (e : EntryNo) (f : Entry → Entry) (s t : State) : Prop where
  entry : t.entry e = (s.entry e).map f
  alike : ∀ x, (f x).Alike x
  contexts : ∀ c, t.ctx c = s.ctx c
  slots : ∀ a sl, t.slot a sl = s.slot a sl
  orders : ∀ a c, (t.port a).awaitedBy c = (s.port a).awaitedBy c
  request : HasRequest t e → HasRequest s e ∨ ∃ x, s.entry e = some x ∧ x.context = none

theorem Idle.kept (h : Idle s e x) (hk : BeltpackKept e f s t) : Idle t e (f x) where
  entry := by rw [hk.entry, h.entry]; rfl
  timed := h.timed.alike (hk.alike x)
  context := (hk.alike x).context.trans h.context
  still := by rw [(hk.alike x).state]; exact h.still
  window := (hk.alike x).window.trans h.window
  holding := by rw [(hk.alike x).serving]; exact h.holding.of_slots hk.slots
  unreserved a sl := by rw [hk.slots]; exact h.unreserved a sl
  free c y := by rw [hk.contexts]; exact h.free c y

theorem Busy.marked (h : Busy s e x c y) (hk : BeltpackKept e f s t) : Busy t e (f x) c y :=
  h.change (by rw [hk.entry, h.entry]; rfl) ((hk.contexts c).trans h.ctx) (fun c' _ => hk.contexts c') hk.slots
    (fun hq => (hk.request hq).resolve_right fun ⟨x', hx', hn⟩ => by
      obtain rfl := Option.some.inj (h.entry.symm.trans hx')
      rw [h.context] at hn; cases hn)
    (hk.alike x) rfl rfl rfl .rfl fun a sl hr => ⟨(h.reserved a sl hr).1, (h.reserved a sl hr).2.1⟩

theorem Aimed.kept (h : Aimed w s e c y) (hk : BeltpackKept e f s t) : Aimed w t e c y where
  target := by simpa only [hk.slots] using h.target
  orders a := (hk.orders a c).trans (h.orders a)

theorem Beltpack.kept (h : Beltpack w s e) (hk : BeltpackKept e f s t) : Beltpack w t e := by
  cases h with
  | absent h =>
    refine .absent ⟨by rw [hk.entry, h.entry]; rfl, fun c y => by rw [hk.contexts]; exact h.free c y,
      fun a sl => by rw [Holds, hk.slots]; exact h.slots a sl, fun hq => ?_⟩
    obtain hq | ⟨x, hx, -⟩ := hk.request hq
    · exact h.unasked hq
    · rw [h.entry] at hx; cases hx
  | idle h => exact .idle (h.kept hk)
  | busy h ha => exact .busy (h.marked hk) (ha.kept hk)

/-! ### States at rest -/

theorem SweptClosed.none : SweptClosed none s := fun _ h => (nomatch h)

/-- A step of the work on a beltpack that leaves it in agreement. -/
theorem Sound.change (h : Sound w s) (hstep : WorkStep w e oc s t) (hst : StoresInOrder t) (hcl : SweptClosed w t)
    (hb : Beltpack w s e → Beltpack w t e) : Sound w t :=
  ⟨hst, hcl, ((h.agree.but e).step hstep).done (hb (h.agree.beltpacks e nofun))⟩

/-- Nothing of the stores changed but the link and the like. -/
theorem Sound.kept (h : Sound w s) (hst : StoresInOrder t) (hr : t.roster = s.roster := by rfl)
    (hc : t.contexts = s.contexts := by rfl) (ha : t.antennas = s.antennas := by rfl) (hp : t.ports = s.ports := by rfl)
    (hq : t.queue = s.queue := by rfl) : Sound w t := by
  have hstep (e : EntryNo) : WorkStep w e none s t := .kept hr hc ha hp hq
  refine ⟨hst, fun a hw => by rw [State.ant, ha]; exact h.closed a hw, fun e _ => ?_,
    (hstep 0).lanes h.agree.lanes, fun c hn a => ?_, hq ▸ h.agree.one⟩
  · refine (h.agree.beltpacks e nofun).kept (f := id)
      ⟨by rw [State.entry, hr, Option.map_id]; rfl, fun _ => .refl _, fun c => by rw [State.ctx, hc]; rfl,
        fun a sl => by rw [State.slot, State.ant, ha]; rfl, fun a c => by rw [State.port, hp]; rfl, fun hq' => .inl ?_⟩
    rwa [HasRequest, hq] at hq'
  · rw [State.port, hp]
    rw [State.ctx, hc] at hn
    exact h.agree.freed c hn a

theorem Sound.mapLink (h : Sound w s) (f : HostLink → HostLink) : Sound w (s.mapLink f) := h.kept (h.stores.mapLink f)

theorem Sound.queueNotice (h : Sound w s) (n : Notice) : Sound w (s.queueNotice n) := h.kept (h.stores.queueNotice n)

theorem Sound.latchStray (h : Sound w s) : Sound w s.latchStray := h.mapLink _

/-- An entry is changed in what no transaction reads. -/
theorem beltpackKept_mapEntry (s : State) (e : EntryNo) (hf : ∀ x, (f x).Alike x) : BeltpackKept e f s (s.mapEntry e f) where
  entry := State.entry_mapEntry_self _ _ _
  alike := hf
  contexts c := State.ctx_mapEntry _ _ _ _
  slots a sl := by rw [State.slot, State.ant_mapEntry]; rfl
  orders a c := by rw [State.port_mapEntry]
  request := by rw [HasRequest, State.mapEntry_queue]; exact .inl

theorem Sound.mapMarks (h : Sound w s) (e : EntryNo) (hst : StoresInOrder (s.mapEntry e f)) (hf : ∀ x, (f x).Alike x)
    (hg : ∀ x, (f x).groupA = x.groupA ∧ (f x).groupB = x.groupB) : Sound w (s.mapEntry e f) :=
  h.change (workStep_mapEntry s e hg) hst (fun a hw => by rw [State.ant_mapEntry]; exact h.closed a hw)
    (·.kept (beltpackKept_mapEntry s e hf))

theorem Sound.mapSurvey (h : Sound w s) (e : EntryNo) {f : Survey → Survey} (hf : ∀ v, SurveyInOrder v → SurveyInOrder (f v)) :
    Sound w (s.mapSurvey e f) := by
  refine Sound.mapMarks h e (h.stores.mapSurvey e hf) ?_ ?_
  · exact fun _ => ⟨rfl, rfl, rfl, rfl, rfl, rfl⟩
  · exact fun _ => ⟨rfl, rfl⟩

/-- Requests changed alone, where only a beltpack without a transaction may come to have one. -/
theorem beltpackKept_queue (hrest : t = { s with queue := t.queue, nextOrder := t.nextOrder })
    (hq : HasRequest t e → HasRequest s e ∨ ∃ x, s.entry e = some x ∧ x.context = none) : BeltpackKept e id s t := by
  have hk : BeltpackKept e id s { s with queue := t.queue, nextOrder := t.nextOrder } :=
    ⟨Option.map_id_fun ▸ rfl, fun _ => .refl _, fun _ => rfl, fun _ _ => rfl, fun _ _ => rfl, hq⟩
  exact hrest ▸ hk

theorem Sound.setQueue (h : Sound w s) (hrest : t = { s with queue := t.queue, nextOrder := t.nextOrder })
    (hst : StoresInOrder t) (hstep : WorkStep w e none s t)
    (hq : HasRequest t e → HasRequest s e ∨ ∃ x, s.entry e = some x ∧ x.context = none) : Sound w t :=
  h.change hstep hst (fun a hw => by rw [hrest]; exact h.closed a hw) (·.kept (beltpackKept_queue hrest hq))

theorem Sound.raiseRequest (h : Sound w s) (e : EntryNo) (v : Raise) : Sound w (s.raiseRequest e v) := by
  refine h.setQueue (State.raiseRequest_rest s e v) (h.stores.raiseRequest e v) (workStep_raiseRequest s e v) fun hq => ?_
  cases he : s.entry e with
  | none => rw [State.raiseRequest, he] at hq; exact .inl hq
  | some x =>
    by_cases hc : x.context = none
    · exact .inr ⟨x, rfl, hc⟩
    · rw [State.raiseRequest_busy he hc] at hq; exact .inl hq

theorem Sound.removeRequest (h : Sound w s) (e : EntryNo) : Sound w (s.removeRequest e) :=
  h.setQueue (e := e) rfl (h.stores.removeRequest e) (workStep_removeRequest s e) fun ⟨r, hr, he⟩ =>
    .inl ⟨r, (mem_dropRequest.mp hr).1, he⟩

theorem Sound.raiseEvacuation (h : Sound w s) (e : EntryNo) : Sound w (s.raiseEvacuation e) := by
  unfold State.raiseEvacuation
  split
  · exact h
  · exact h.raiseRequest e _

/-- A port changed, with the orders that contexts await kept. -/
theorem Sound.mapPort (h : Sound w s) (a : AntennaNo) {f : Port → Port}
    (hf : ∀ c, (f (s.port a)).awaitedBy c = (s.port a).awaitedBy c) (hst : StoresInOrder (s.mapPort a f)) :
    Sound w (s.mapPort a f) :=
  h.change (workStep_mapPort (e := 0) s a hf) hst h.closed (·.kept (f := id)
    ⟨Option.map_id_fun ▸ rfl, fun _ => .refl _, fun _ => rfl, fun _ _ => rfl, fun b c => by
      rw [State.awaitedBy_mapPort]
      split
      next hab => rw [hf, hab]
      next => rfl, .inl⟩)

theorem Sound.beginExchange (h : Sound w s) (a : AntennaNo) : Sound w (s.beginExchange a) :=
  Sound.mapPort h a (fun c => Port.awaitedBy_congr (Port.unanswered_begin _ _ _ _) c) (h.stores.beginExchange a)

/-- The records of the antennas changed, but for slots and lanes. -/
theorem Sound.mapAnt (h : Sound none s) (a : AntennaNo) {f : Antenna → Antenna} (hst : StoresInOrder (s.mapAnt a f))
    (hf : ∀ r, (f r).slots = r.slots ∧ (f r).lanes = r.lanes) : Sound none (s.mapAnt a f) := by
  have hant (b : AntennaNo) : ((s.mapAnt a f).ant b).slots = (s.ant b).slots ∧ ((s.mapAnt a f).ant b).lanes = (s.ant b).lanes := by
    by_cases hb : a = b
    · subst hb; rw [State.ant_mapAnt_self]; exact hf _
    · rw [State.ant_mapAnt_ne _ _ hb]; exact ⟨rfl, rfl⟩
  have hslot (b : AntennaNo) (sl : SlotNo) : (s.mapAnt a f).slot b sl = s.slot b sl := by
    rw [State.slot, (hant b).1]; rfl
  exact ⟨hst, .none, fun e _ => (h.agree.beltpacks e nofun).kept (f := id)
    ⟨Option.map_id_fun ▸ rfl, fun _ => .refl _, fun _ => rfl, hslot, fun _ _ => rfl, .inl⟩,
    h.agree.lanes.of (fun b _ => (hant b).2) (fun b sl _ => by rw [hslot]) fun _ => rfl, h.agree.freed, h.agree.one⟩

end Sys2Proof.Machine
end

section
/-! Every step keeps transactions in order, part five: the choice of a target and the disposal. -/

namespace Sys2Proof.Machine

variable {s t u : State} {a b : AntennaNo} {sl : SlotNo} {e e' : EntryNo} {x x' : Entry} {c c' : ContextNo} {y y' : Context}
  {w : Option AntennaNo} {oc : Option ContextNo} {f : Entry → Entry} {k : Condition} {found : ConditionSet}

/-! ### A transaction at work, marked (R105, R129) -/

/-- Marks on the entry and notices leave the transaction at work. -/
theorem Working.marked (h : Working w s e x c y) (hk : BeltpackKept e f s t) (hstep : WorkStep w e none s t)
    (hst : StoresInOrder t) (hw : Worked s t) : Working w t e (f x) c y :=
  h.step (hstep.owning h.busy.ctx h.busy.mine) hst hw (h.busy.marked hk) h.early fun a => by rw [hk.orders]; exact h.posted a

theorem Working.mapMarks (h : Working w s e x c y) (hst : StoresInOrder (s.mapEntry e f)) (hw : Worked s (s.mapEntry e f))
    (hf : ∀ x, (f x).Alike x) (hg : ∀ x, (f x).groupA = x.groupA ∧ (f x).groupB = x.groupB) :
    Working w (s.mapEntry e f) e (f x) c y :=
  h.marked (beltpackKept_mapEntry s e hf) (workStep_mapEntry s e hg) hst hw

theorem Working.mapLink (h : Working w s e x c y) {f : HostLink → HostLink} (hw : Worked s (s.mapLink f)) :
    Working w (s.mapLink f) e x c y :=
  h.marked (f := id) ⟨Option.map_id_fun ▸ rfl, fun _ => .refl _, fun _ => rfl, fun _ _ => rfl, fun _ _ => rfl, .inl⟩ .kept
    (h.stores.mapLink f) hw

/-- An entry with the conditions of a disposal in its sets (R118). -/
def Entry.marked (x : Entry) (found : ConditionSet) : Entry :=
  { x with current := x.current ||| found, accrued := x.accrued ||| found }

theorem Working.recordConditions (h : Working w s e x c y) (found : ConditionSet) :
    Working w (s.recordConditions e found) e (x.marked found) c y := by
  have hm : Working w (s.mapEntry e (Entry.marked · found)) e (x.marked found) c y := by
    refine h.mapMarks (h.stores.mapMarks e ?_) (s.mapEntry_settled e ?_).toWorked ?_ ?_
    · exact fun _ => ⟨rfl, rfl, rfl, rfl⟩
    · exact fun _ => rfl
    · exact fun _ => ⟨rfl, rfl, rfl, rfl, rfl, rfl⟩
    · exact fun _ => ⟨rfl, rfl⟩
  exact hm.mapLink (State.mapLink_settled _).toWorked

theorem Working.reportForced (h : Working w s e x c y) (y' : Context) (k : Condition) (d : Decision) :
    Working w (s.reportForced y' k d) e x c y := by
  unfold State.reportForced
  split
  · exact h
  · split
    · exact h.mapLink (State.queueNotice_settled s _).toWorked
    · exact h

/-! ### The choice of a target (R94, R96) -/

/-- The transaction has neither target slot nor order: it is about to choose a target. -/
structure Choosing (w : Option AntennaNo) (s : State) (e : EntryNo) (x : Entry) (c : ContextNo) (y : Context) : Prop
    extends Working w s e x c y where
  awaited : y.awaited = none
  slotless : y.targetSlot = none
  reserve : y.phase = .reserve

theorem Working.unawaited (h : Working w s e x c y) (haw : y.awaited = none) : Unawaited s c := fun a => by
  by_contra hne
  obtain ⟨v, hv, -⟩ := h.posted a hne
  rw [haw] at hv; cases hv

theorem Working.unreserved (h : Working w s e x c y) (hts : y.targetSlot = none) (a : AntennaNo) (sl : SlotNo) :
    s.slot a sl ≠ .reserved e := fun hr => by
  have := (h.busy.reserved a sl hr).2.1
  rw [hts] at this; cases this

theorem Choosing.unawaited (h : Choosing w s e x c y) : Unawaited s c := h.toWorking.unawaited h.awaited

theorem Choosing.unreserved (h : Choosing w s e x c y) (a : AntennaNo) (sl : SlotNo) : s.slot a sl ≠ .reserved e :=
  h.toWorking.unreserved h.slotless a sl

/-- The context written while it has no order and no slot. -/
theorem Working.put (h : Working w s e x c y) (haw : y.awaited = none) (hts : y.targetSlot = none) (hm : y'.entry = y.entry) (hk : y'.kind = y.kind) (hs : y'.source = y.source)
    (ha : y'.awaited = none) (ht : y'.targetSlot = none) (hp : y'.phase = .reserve) :
    Choosing w { s with contexts := s.contexts.set c (some y') } e x c y' where
  toWorking := h.step
    (workStep_putCtx (fun y hy => by obtain rfl := Option.some.inj (h.busy.ctx.symm.trans hy); exact h.busy.mine)
      (fun y hy => by obtain rfl := Option.some.inj hy; exact hm.trans h.busy.mine) fun h => nomatch h)
    h.stores.of_kept (s.putCtx_settled c (some y')).toWorked
    (h.busy.change h.busy.entry (s.ctx_putCtx_self c (some y')) (fun c' hc => s.ctx_putCtx_ne (some y') (Ne.symm hc)) (fun _ _ => rfl) id (.refl x) hm hk hs
      (by rw [hp]; exact ⟨fun h => (nomatch h), fun hr => absurd hr h.early⟩)
      fun a sl hr => absurd hr (h.unreserved hts a sl))
    (by rw [hp]; exact fun h => nomatch h) fun a hne => absurd (h.unawaited haw a) hne
  awaited := ha
  slotless := ht
  reserve := hp

theorem Choosing.aimed (h : Choosing w s e x c y) (t : Option AntennaNo) :
    Choosing w (s.aimed c y t) e x c { y with target := t } :=
  h.toWorking.put h.awaited h.slotless rfl rfl rfl h.awaited h.slotless h.reserve

/-- The context that an admission leaves (R95, R96). -/
def Context.admittedTo (y : Context) (a : AntennaNo) (sl : SlotNo) : Context :=
  { y with target := some a, targetSlot := some sl, awaited := some ⟨.reserve, a⟩ }

theorem Context.admittedTo_expects (y : Context) (a b : AntennaNo) (sl : SlotNo) :
    (y.admittedTo a sl).expects b = if a = b then [.reserve] else [] := by
  by_cases hab : a = b <;> simp [Context.expects, Context.admittedTo, hab]

section
variable (h : Choosing w s e x c y)
  (hslot : ∀ b sl', t.slot b sl' = if a = b ∧ sl = sl' then .reserved e else s.slot b sl')
include h hslot

theorem Choosing.admitted_holding (hnot : ∀ sl', ¬ Holds s a sl' e) (hfree : s.slot a sl = .free) : Holding t e x.serving where
  once b sl₁ sl₂ h1 h2 := by
    simp only [Holds, hslot] at h1 h2
    split at h1
    next hab =>
      obtain ⟨rfl, rfl⟩ := hab
      split at h2
      next hab => exact hab.2
      next => exact absurd h2 (hnot sl₂)
    next =>
      split at h2
      next hab => obtain ⟨rfl, -⟩ := hab; exact absurd h1 (hnot sl₁)
      next => exact h.busy.holding.once b sl₁ sl₂ h1 h2
  occupied b sl' := by
    rw [hslot, ← h.busy.holding.occupied b sl']
    split
    next hab =>
      obtain ⟨rfl, rfl⟩ := hab
      rw [hfree]; exact ⟨nofun, nofun⟩
    next => rfl

theorem Choosing.admitted_busy (hnot : ∀ sl', ¬ Holds s a sl' e) (hfree : s.slot a sl = .free) (he : t.entry e = some x)
    (hc : t.ctx c = some (y.admittedTo a sl)) (hrest : ∀ c', c' ≠ c → t.ctx c' = s.ctx c') (hq : t.queue = s.queue) :
    Busy t e x c (y.admittedTo a sl) where
  entry := he
  timed := h.busy.timed
  context := h.busy.context
  ctx := hc
  mine := h.busy.mine
  only c' z hz hze := by
    by_contra hne
    exact hne (h.busy.only c' z ((hrest c' hne).symm.trans hz) hze)
  unasked := by rw [HasRequest, hq]; exact h.busy.unasked
  fits := Context.fits_of h.busy.fits rfl rfl .rfl rfl rfl
  source := h.busy.source
  releasing hp := absurd hp h.early
  holding := h.admitted_holding hslot hnot hfree
  reserved b sl' hr := by
    rw [hslot] at hr
    split at hr
    next hab =>
      obtain ⟨rfl, rfl⟩ := hab
      exact ⟨rfl, rfl, h.early⟩
    next => exact absurd hr (h.unreserved b sl')

theorem Choosing.admitted_aimed (hwa : w ≠ some a)
    (ho : ∀ b, (t.port b).awaitedBy c = (s.port b).awaitedBy c ++ if a = b then [.reserve] else []) :
    Aimed w t e c (y.admittedTo a sl) where
  target := ⟨a, sl, rfl, rfl, by
    have hr : (y.admittedTo a sl).phase = .reserve := h.reserve
    unfold Context.awaits
    rw [hr]; rfl, fun _ => by rw [hslot, if_pos ⟨rfl, rfl⟩]⟩
  orders b := by
    rw [ho, h.unawaited b, List.nil_append, Context.admittedTo_expects]
    by_cases hab : a = b
    · subst hab; rw [if_neg hwa]
    · rw [if_neg hab, ite_self]

end

/-- An admitted transaction aims at its reserved slot. -/
theorem Choosing.admitted (h : Choosing w s e x c y) (ho : (s.ant a).open = true)
    (ht : (s.ant a).admissionTest e (presentGroups x.groupA x.groupB) = 0) (hf : (s.ant a).lowestFree = some sl) :
    Sound w (s.admitted c y x a sl) := by
  have hwa : w ≠ some a := fun hw => by have := h.closed a hw; rw [ho] at this; cases this
  obtain ⟨sl', hf', hholds, hlane⟩ := Antenna.lowestFree_of_admissionTest ht
  obtain rfl := Option.some.inj (hf.symm.trans hf')
  have hfree : s.slot a sl = .free := (Antenna.lowestFree_some.mp hf).1
  have hnot (sl' : SlotNo) : ¬ Holds s a sl' e := fun hh => by
    rw [Antenna.holds_iff.mpr ⟨sl', hh⟩] at hholds; cases hholds
  obtain rfl := h.busy.mine
  have hx := h.busy.entry
  have hroom := Antenna.roomForAll hlane
  let groups := presentGroups x.groupA x.groupB
  have hclaim : WorkStep w y.entry none s (s.claim a sl y.entry groups) := workStep_claim hx hfree h.stores hroom
  have hput : WorkStep w y.entry (some c) (s.claim a sl y.entry groups)
      ((s.claim a sl y.entry groups).putCtx c (some (y.admittedTo a sl))) :=
    workStep_putCtx (fun z hz => by obtain rfl := Option.some.inj (h.busy.ctx.symm.trans hz); rfl)
      (fun z hz => by obtain rfl := Option.some.inj hz; rfl) fun h => nomatch h
  have hctx : ((s.claim a sl y.entry groups).putCtx c (some (y.admittedTo a sl))).ctx c = some (y.admittedTo a sl) :=
    State.ctx_putCtx_self _ _ _
  have hstores := h.stores.claim (h.stores.entries _ x hx).nodup hroom sl y.entry
  have hslot (o : Order) (b : AntennaNo) (sl' : SlotNo) :
      (((s.claim a sl y.entry groups).putCtx c (some (y.admittedTo a sl))).postOrder a o).slot b sl' =
        if a = b ∧ sl = sl' then .reserved y.entry else s.slot b sl' := by
    change (s.claim a sl y.entry groups).slot b sl' = _
    rw [State.claim_eq]; exact State.slot_written _ _ _ _ _ _ _
  change Sound w (((s.claim a sl y.entry groups).putCtx c (some (y.admittedTo a sl))).postOrder a _)
  refine h.toWorking.aimed (((hclaim.owning h.busy.ctx rfl).trans hput).trans (workStep_postOrder_own hctx rfl a rfl))
    ((hstores.putCtx _ _).postOrder _ _)
    (((State.claim_settled ho sl _ _).trans (State.putCtx_settled _ _ _)).trans (State.postOrder_settled _ _ _)).toWorked
    (h.admitted_busy (hslot _) hnot hfree hx hctx (fun c' hc => State.ctx_putCtx_ne _ _ (Ne.symm hc)) rfl)
    (h.admitted_aimed (hslot _) hwa fun b => ?_)
  rw [State.awaitedBy_postOrder]
  simp only [and_true]
  rfl

/-- A choice of target ends the work, or leaves the transaction choosing, with the conditions found. -/
theorem Choosing.tryTarget (h : Choosing w s e x c y) (first : Bool) :
    (∃ t, (s.tryTarget c first).2 ≠ 0 ∧ (s.tryTarget c first).1 = s.aimed c y t) ∨
      (s.tryTarget c first).2 = 0 ∧ Sound w (s.tryTarget c first).1 := by
  rcases State.tryTarget_cases h.busy.ctx first with ⟨t, k, hk, ht⟩ | ⟨a, sl, z, -, hz, ho, hadm, hlow, ht⟩
  · rw [ht]; exact .inl ⟨t, hk, rfl⟩
  · rw [ht]
    rw [h.busy.mine] at hz hadm
    obtain rfl := Option.some.inj (h.busy.entry.symm.trans hz)
    exact .inr ⟨rfl, h.admitted ho hadm hlow⟩

end Sys2Proof.Machine
end

section
/-! Every step keeps transactions in order, part six: the disposal of conditions, and the dispatch. -/

namespace Sys2Proof.Machine

variable {s t u : State} {a b : AntennaNo} {sl : SlotNo} {e e' : EntryNo} {x x' : Entry} {c c' : ContextNo} {y y' : Context}
  {w : Option AntennaNo} {oc : Option ContextNo} {f : Entry → Entry} {k : Condition} {found : ConditionSet}

/-! ### What a choice can find -/

/-- A choice of target finds no loss of the source. -/
theorem State.tryTarget_condition (s : State) (c : ContextNo) (first : Bool) (hne : (s.tryTarget c first).2 ≠ 0) :
    ∃ k, reportedCondition (s.tryTarget c first).2 = some k ∧ k ≠ .srcLost := by
  have hnotarget : ∃ k, reportedCondition Condition.noTarget.bit = some k ∧ k ≠ .srcLost := ⟨.noTarget, by decide⟩
  have hadmission (r : Antenna) (e : EntryNo) (groups : List Group) (hr : r.admissionTest e groups ≠ 0) :
      ∃ k, reportedCondition (r.admissionTest e groups) = some k ∧ k ≠ .srcLost := by
    revert hr
    rw [Antenna.admissionTest_eq]
    cases r.slotCheckFails e <;> cases r.laneCheckFails groups
    · exact fun hr => absurd rfl hr
    · exact fun _ => ⟨.noLane, by decide⟩
    · exact fun _ => ⟨.noSlot, by decide⟩
    · exact fun _ => ⟨.noLane, by decide⟩
  cases hy : s.ctx c with
  | none => rw [State.tryTarget, hy] at hne; exact absurd rfl hne
  | some y =>
    cases hch : s.chooseTarget y first with
    | none => rw [State.tryTarget_none hy hch]; exact hnotarget
    | some a =>
      rw [State.tryTarget_some hy hch] at hne ⊢
      cases he : (s.aimed c y (some a)).entry y.entry with
      | none => rw [State.seekAdmission, he]; exact hnotarget
      | some x =>
        cases ho : ((s.aimed c y (some a)).ant a).open with
        | false => rw [State.seekAdmission_closed he ho]; exact hnotarget
        | true =>
          by_cases ht : ((s.aimed c y (some a)).ant a).admissionTest y.entry (presentGroups x.groupA x.groupB) = 0
          · obtain ⟨sl, hl, -, -⟩ := Antenna.lowestFree_of_admissionTest ht
            exact absurd (congrArg Prod.snd (State.seekAdmission_room (y := { y with target := some a }) (s.aimed_ctx c y (some a))
              he ho ht hl)) hne
          · rw [State.seekAdmission_found he ho ht]; exact hadmission _ _ _ ht

/-- Only the loss of the source converts (R122). -/
theorem State.decideDisposal_convert (h : s.decideDisposal y k = .convert) : k = .srcLost := by
  by_contra hk
  by_cases hp : (!k.forced && k.within s.enableSet) = true
  · rw [State.decideDisposal_post hp] at h; cases h
  · rw [State.decideDisposal_fallback hp, if_neg hk] at h
    have hre : s.decideReEnter y ≠ .convert := by rw [State.decideReEnter_eq]; split <;> exact fun h => nomatch h
    have hdis : s.decideDisplace y ≠ .convert := by
      unfold State.decideDisplace
      split
      · exact fun h => nomatch h
      · split <;> exact fun h => nomatch h
    cases hm : s.fallbackMode with
    | stay => rw [hm] at h; cases h
    | retry => rw [hm] at h; exact hre h
    | next =>
      rw [hm] at h
      simp only at h
      split at h <;> cases h
    | displace =>
      rw [hm] at h
      simp only at h
      split at h
      · cases h
      · split at h
        · exact hdis h
        · cases h

/-! ### The dispositions (R119 to R127) -/

section
variable (h : Working w s e x c y)
include h

theorem Working.postFault (k : Condition) : Sound w (s.postFault c y k) := by
  have hg := h.giveUp
  unfold State.postFault
  rw [h.busy.mine]
  simp only [hg.busy.entry]
  have hm := hg.mapMarks (f := fun z => { z with posted := some ⟨k, z.current, y.target, y.cause⟩ }) ?_ ?_ ?_ ?_
  · exact (hm.mapLink (State.queueNotice_settled _ (.handoffHeld e x.id k x.current y.target y.cause)).toWorked).end rfl rfl
  · exact hg.stores.mapMarks e fun _ => ⟨rfl, rfl, rfl, rfl⟩
  · refine (State.mapEntry_settled _ e ?_).toWorked
    exact fun _ => rfl
  · exact fun _ => ⟨rfl, rfl, rfl, rfl, rfl, rfl⟩
  · exact fun _ => ⟨rfl, rfl⟩

theorem Working.stop : Sound w ((s.giveUpAttempt c).endTransaction c) := h.giveUp.end rfl rfl

theorem Working.handBack (hroom : s.queue.length < 16) (n : Nat) (d : Bool) :
    Sound w (((s.giveUpAttempt c).requeue y n d).endTransaction c) := by
  have hg := h.giveUp
  exact hg.finish rfl rfl (workStep_enqueue h.busy.mine hg.busy.unasked)
    (hg.stores.requeue (by rw [State.giveUpAttempt_queue]; exact hroom) y n d) (State.requeue_settled _ y n d).toWorked rfl rfl rfl rfl

theorem Working.moveOn : Choosing w (s.moveOn c y) e x c y.movedOn := by
  have hg := h.giveUp
  unfold State.moveOn
  rw [State.mapCtx_eq hg.busy.ctx]
  exact hg.put rfl rfl rfl rfl rfl rfl rfl rfl

end

/-- A disposal ends the work, if the disposals after a fresh choice do (R105, R118). -/
theorem Working.dispose_of (h : Working w s e x c y) (hk : reportedCondition found = some k) (hsrc : k ≠ .srcLost)
    (hnext : k ≠ .noTarget → ∀ t x', Choosing w t e x' c y.movedOn → (t.tryTarget c false).2 ≠ 0 →
      Sound w ((t.tryTarget c false).1.dispose c (t.tryTarget c false).2)) : Sound w (s.dispose c found) := by
  obtain rfl := h.busy.mine
  generalize hd : (s.recordConditions y.entry found).decideDisposal y k = d
  rw [State.dispose_acts h.busy.ctx hk hd]
  have hu := (h.recordConditions found).reportForced y k d
  have hroom (hd' : d = .reEnter ∨ ∃ v, d = .displace v) :
      ((s.recordConditions y.entry found).reportForced y k d).queue.length < 16 := by
    rw [State.reportForced_queue]; exact State.decideDisposal_room hd hd'
  cases d with
  | post => exact hu.postFault k
  | stop => exact hu.stop
  | reEnter => exact hu.handBack (hroom (.inl rfl)) _ _
  | displace v => exact Sound.raiseRequest (hu.handBack (hroom (.inr ⟨v, rfl⟩)) _ _) v _
  | convert => exact absurd (State.decideDisposal_convert hd) hsrc
  | next =>
    simp only [State.acts]
    split
    next hz =>
      rcases hu.moveOn.tryTarget false with ⟨t, hne, -⟩ | ⟨-, hs⟩
      · exact absurd hz hne
      · exact hs
    next hne =>
      refine hnext (fun hn => ?_) _ _ hu.moveOn hne
      subst hn
      exact State.decideDisposal_noTarget _ _ hd

/-- The disposals after fresh choices end, since each choice tries a target that had not been tried. -/
theorem Choosing.dispose_found (h : Choosing w s e x c y) (hne : (s.tryTarget c false).2 ≠ 0) :
    Sound w ((s.tryTarget c false).1.dispose c (s.tryTarget c false).2) := by
  induction hn : (untried y.tried).card using Nat.strong_induction_on generalizing s x y with
  | _ n ih =>
    obtain ⟨k, hk, hsrc⟩ := State.tryTarget_condition s c false hne
    obtain ⟨t, -, ht⟩ | ⟨hz, -⟩ := h.tryTarget false
    · have hctx : (s.tryTarget c false).1.ctx c = some { y with target := t } := by rw [ht]; exact s.aimed_ctx c y t
      have hw := (h.aimed t).toWorking
      rw [← ht] at hw
      refine hw.dispose_of hk hsrc fun hk' u x' hu hne' => ?_
      obtain h80 | ⟨a, ha, hca⟩ := State.tryTarget_found h.busy.ctx hne
      · rw [h80, reportedCondition_noTarget] at hk
        exact absurd (Option.some.inj hk).symm hk'
      · rw [hctx] at hca
        have hta : t = some a := congrArg Context.target (Option.some.inj hca)
        subst hta hn
        exact ih _ (untried_or_bit ha) hu hne' rfl
    · exact absurd hz hne

/-- The disposal of conditions other than the loss of the source ends the work. -/
theorem Working.dispose (h : Working w s e x c y) (hk : reportedCondition found = some k) (hsrc : k ≠ .srcLost) :
    Sound w (s.dispose c found) := h.dispose_of hk hsrc fun _ _ _ hu hne => hu.dispose_found hne

/-! ### The dispatch (R88, R92) -/

/-- The choice of a target, with the disposal of what it finds. -/
theorem Choosing.choose (h : Choosing w s e x c y) (first : Bool) :
    Sound w (if (s.tryTarget c first).2 = 0 then (s.tryTarget c first).1
      else (s.tryTarget c first).1.dispose c (s.tryTarget c first).2) := by
  obtain ⟨t, hne, ht⟩ | ⟨hz, hs⟩ := h.tryTarget first
  · obtain ⟨k, hk, hsrc⟩ := State.tryTarget_condition s c first hne
    have hw := (h.aimed t).toWorking
    rw [← ht] at hw
    rw [if_neg hne]
    exact hw.dispose hk hsrc
  · rw [if_pos hz]; exact hs

end Sys2Proof.Machine
end

section
/-! Every step keeps transactions in order, part seven: the dispatch of requests. -/

namespace Sys2Proof.Machine

variable {s t u : State} {a b : AntennaNo} {sl : SlotNo} {e e' : EntryNo} {x x' : Entry} {c c' : ContextNo} {y y' : Context}
  {w : Option AntennaNo} {r : Request}

/-! ### Reading the agreement of one beltpack -/

theorem Sound.beltpack (h : Sound w s) (e : EntryNo) : Beltpack w s e := h.agree.beltpacks e nofun

/-- A beltpack without a transaction. -/
theorem Sound.idle (h : Sound w s) (he : s.entry e = some x) (hc : x.context = none) : Idle s e x := by
  cases h.beltpack e with
  | absent hn => rw [hn.entry] at he; cases he
  | idle hi =>
    obtain rfl := Option.some.inj (hi.entry.symm.trans he)
    exact hi
  | busy hb _ =>
    obtain rfl := Option.some.inj (hb.entry.symm.trans he)
    rw [hb.context] at hc; cases hc

/-- A beltpack whose transaction runs. -/
theorem Sound.busy (h : Sound w s) (he : s.entry e = some x) (hc : x.context = some c) :
    ∃ y, Busy s e x c y ∧ Aimed w s e c y := by
  cases h.beltpack e with
  | absent hn => rw [hn.entry] at he; cases he
  | idle hi =>
    obtain rfl := Option.some.inj (hi.entry.symm.trans he)
    rw [hi.context] at hc; cases hc
  | @busy x' c' y hb ha =>
    obtain rfl := Option.some.inj (hb.entry.symm.trans he)
    obtain rfl := Option.some.inj (hb.context.symm.trans hc)
    exact ⟨y, hb, ha⟩

/-- A context that runs a transaction. -/
theorem Sound.context (h : Sound w s) (hy : s.ctx c = some y) : ∃ x, Busy s y.entry x c y ∧ Aimed w s y.entry c y := by
  cases h.beltpack y.entry with
  | absent hn => exact absurd rfl (hn.free c y hy)
  | idle hi => exact absurd rfl (hi.free c y hy)
  | @busy x c' y' hb ha =>
    obtain rfl := hb.only c y hy rfl
    obtain rfl := Option.some.inj (hy.symm.trans hb.ctx)
    exact ⟨x, hb, ha⟩

/-- A beltpack with a request has no transaction. -/
theorem Sound.asked (h : Sound w s) (hq : HasRequest s e) : ∃ x, Idle s e x := by
  cases h.beltpack e with
  | absent hn => exact absurd hq hn.unasked
  | @idle x hi => exact ⟨x, hi⟩
  | busy hb _ => exact absurd hq hb.unasked

/-! ### The hand-over (R92, R93) -/

/-- A dispatched entry has the state of its new transaction, and its timers fit that state. -/
theorem Idle.dispatch (h : Idle s e x) (hx : EntryInOrder x) (c : ContextNo) (r : Request) :
    Timed (x.dispatch c r.fresh) ∧ (r.context x).fits (x.dispatch c r.fresh) ∧
      ((r.context x).source.isSome = true ↔ (r.context x).kind = .move) ∧ (x.dispatch c r.fresh).serving = x.serving := by
  obtain ⟨hsettle, hlost, -⟩ := h.timed
  have hstopped (hst : x.state ≠ .served) : x.settleTimer = none := not_not.mp fun hn => hst (hsettle hn)
  have hquiet (hst : x.state ≠ .lost) : x.lostTimer = none := not_not.mp fun hn => hst (hlost hn)
  have hserved (hst : x.state = .served) : x.serving.isSome = true := hx.serving.mpr (.inl hst)
  rw [Entry.dispatch_eq, Request.context_eq]
  unfold Context.fits
  cases hst : x.state with
  | unattached =>
    have h1 := hstopped (by rw [hst]; nofun)
    have h2 := hquiet (by rw [hst]; nofun)
    exact ⟨⟨by simp [h1], by simp [h2], by simp [h.window]⟩, by simp, by simp, rfl⟩
  | served =>
    have h1 := hquiet (by rw [hst]; nofun)
    exact ⟨⟨by simp, by simp [h1], by simp [h.window]⟩, by simp, by simpa using hserved hst, rfl⟩
  | lost =>
    have h1 := hstopped (by rw [hst]; nofun)
    exact ⟨⟨by simp [h1], by simp, by simp [h.window]⟩, by simp, by simp, rfl⟩
  | attaching => exact absurd hst h.still.1
  | moving => exact absurd hst h.still.2

theorem workStep_taken (he : s.entry e = some x) (hr : r.entry = e) (hc : s.ctx c = none) :
    WorkStep w e (some c) s (s.taken c r x) := by
  subst hr
  have hentry : WorkStep w r.entry none s (s.mapEntry r.entry fun x => x.dispatch c r.fresh) :=
    workStep_mapEntry _ _ fun x => by rw [Entry.dispatch_eq]; exact ⟨rfl, rfl⟩
  have hqueue := workStep_removeRequest (w := w) (e₁ := r.entry) (s.mapEntry r.entry fun x => x.dispatch c r.fresh) r.entry
  rw [State.mapEntry_eq he] at hentry hqueue
  rw [State.removeRequest_eq] at hqueue
  refine (((hentry.trans hqueue).owning_none hc).trans (workStep_putCtx (c := c) (v := some (r.context x)) (fun y hy => ?_)
    (fun y hy => ?_) fun h => nomatch h))
  · have hy' : s.ctx c = some y := hy
    rw [hc] at hy'; cases hy'
  · obtain rfl := Option.some.inj hy; rfl

/-- A request that a free context takes has its beltpack choose a target. -/
theorem Sound.taken (h : Sound w s) (hr : r ∈ s.queue) (hc : s.ctx c = none) :
    ∃ x, s.entry r.entry = some x ∧ Choosing w (s.taken c r x) r.entry (x.dispatch c r.fresh) c (r.context x) := by
  obtain ⟨x, hi⟩ := h.asked ⟨r, hr, rfl⟩
  obtain ⟨htimed, hfits, hsource, hserving⟩ := hi.dispatch (h.stores.entries _ x hi.entry) c r
  have hcontext : (r.context x).phase = .reserve ∧ (r.context x).awaited = none ∧ (r.context x).targetSlot = none := by
    rw [Request.context_eq]; exact ⟨rfl, rfl, rfl⟩
  obtain ⟨hphase, hawaited, hslotless⟩ := hcontext
  have hst : StoresInOrder (s.taken c r x) := by
    have hm := ((h.stores.removeRequest r.entry).mapEntry r.entry (f := (·.dispatch c r.fresh)) (fun _ _ hx => hx.dispatch _ _)
      fun x => x.dispatch_id _ _).putCtx c (some (r.context x))
    rw [State.mapEntry_eq (s := s.removeRequest r.entry) hi.entry, State.removeRequest_eq] at hm
    exact hm
  refine ⟨x, hi.entry, ⟨⟨⟨hst, h.closed, (h.agree.but r.entry).step (workStep_taken hi.entry rfl hc), ?_, ?_⟩, ?_⟩, hawaited,
    hslotless, hphase⟩⟩
  · exact {
      entry := get_set_self _ _ _
      timed := htimed
      context := by rw [Entry.dispatch_eq]
      ctx := get_set_self _ _ _
      mine := rfl
      only := fun c' y' hy' hye => by
        by_contra hne
        have hy : s.ctx c' = some y' := (get_set_ne _ _ (Ne.symm hne)).symm.trans hy'
        exact hi.free c' y' hy hye
      unasked := fun ⟨r', hr', he⟩ => by
        have := (List.mem_filter.mp hr').2
        simp [he] at this
      fits := hfits
      source := hsource
      releasing := fun hp => by rw [hphase] at hp; cases hp
      holding := hserving ▸ hi.holding.of_slots fun _ _ => rfl
      reserved := fun a sl hr => absurd hr (hi.unreserved a sl) }
  · exact fun a hne => absurd (h.agree.freed c hc a) hne
  · rw [hphase]; exact fun h => nomatch h

theorem Sound.handOver (h : Sound w s) (hr : r ∈ s.queue) (hc : s.ctx c = none) : Sound w (s.handOver c r) := by
  obtain ⟨x, hx, ht⟩ := h.taken hr hc
  rw [State.handOver_eq hx]
  exact ht.choose true

theorem Sound.dispatchLoop (n : Nat) : ∀ s : State, Sound w s → Sound w (State.dispatchLoop n s) := by
  induction n with
  | zero => exact fun _ h => h
  | succ n ih =>
    intro s h
    rw [State.dispatchLoop]
    split
    · exact h
    next t ht =>
      obtain ⟨c, r, hc, hr, rfl⟩ := State.dispatchOne_some ht
      rw [State.lowestContext, find_finRange_eq_some] at hc
      exact ih _ (h.handOver (State.firstReady_some hr).1 (Option.isNone_iff_eq_none.mp hc.1))

theorem Sound.settle (h : Sound w s) : Sound w s.settle := Sound.dispatchLoop _ _ h

end Sys2Proof.Machine
end

section
/-! Every step keeps transactions in order, part eight: outcomes of the orders that transactions await. -/

namespace Sys2Proof.Machine

variable {s t u : State} {a b : AntennaNo} {sl bsl : SlotNo} {e e' : EntryNo} {x x' : Entry} {c c' : ContextNo} {y y' : Context}
  {w : Option AntennaNo} {o : Order}

/-! ### An aimed transaction without an order -/

/-- The transaction aims at its reserved slot, and awaits no order: the one it had has an outcome, or is left. -/
structure Unposted (w : Option AntennaNo) (s : State) (e : EntryNo) (x : Entry) (c : ContextNo) (y : Context) : Prop
    extends Working w s e x c y where
  aims : ∃ a sl, y.target = some a ∧ y.targetSlot = some sl ∧ s.slot a sl = .reserved e
  unawaited : Unawaited s c

/-- Two contexts that agree in their beltpack, source and target. -/
structure Context.Alike (y' y : Context) : Prop where
  entry : y'.entry = y.entry
  kind : y'.kind = y.kind
  source : y'.source = y.source
  target : y'.target = y.target
  targetSlot : y'.targetSlot = y.targetSlot

section
variable (h : Unposted w s e x c y) (hy : y'.Alike y)
include h hy

theorem Unposted.workStep : WorkStep w e (some c) s { s with contexts := s.contexts.set c (some y') } :=
  workStep_putCtx (fun z hz => by obtain rfl := Option.some.inj (h.busy.ctx.symm.trans hz); exact h.busy.mine)
    (fun z hz => by obtain rfl := Option.some.inj hz; exact hy.entry.trans h.busy.mine) fun h => nomatch h

/-- The context written, and an order posted or not. -/
theorem Unposted.busy_put (hp : y'.phase ≠ .release) (hr : t.roster = s.roster) (hq : t.queue = s.queue)
    (ha : t.antennas = s.antennas) (hc : t.contexts = s.contexts.set c (some y')) : Busy t e x c y' :=
  h.busy.change (by rw [State.entry, hr]; exact h.busy.entry) (by rw [State.ctx, hc]; exact get_set_self _ _ _)
    (fun c' hne => by rw [State.ctx, hc]; exact get_set_ne _ _ (Ne.symm hne))
    (fun b bsl => by rw [State.slot, State.ant, ha]; rfl) (by rw [HasRequest, HasRequest, hq]; exact id) (.refl x) hy.entry hy.kind hy.source
    ⟨fun hr => absurd hr hp, fun hr => absurd hr h.early⟩ fun b bsl hr => by
      rw [hy.target, hy.targetSlot]
      exact ⟨(h.busy.reserved b bsl hr).1, (h.busy.reserved b bsl hr).2.1⟩

theorem Unposted.target_put (ha : t.antennas = s.antennas) (haw : ∀ a, y.target = some a → y'.awaits a) :
    ∃ a sl, y'.target = some a ∧ y'.targetSlot = some sl ∧ y'.awaits a ∧ (y'.phase ≠ .release → t.slot a sl = .reserved e) := by
  obtain ⟨a, sl, ht, hs, hr⟩ := h.aims
  exact ⟨a, sl, hy.target.trans ht, hy.targetSlot.trans hs, haw a ht, fun _ => by rw [State.slot, State.ant, ha]; exact hr⟩

/-- The transaction goes on to a phase that awaits no order. -/
theorem Unposted.quiet (hp : y'.phase ≠ .release) (hv : y'.awaited = none) (haw : ∀ a, y.target = some a → y'.awaits a) :
    Sound w { s with contexts := s.contexts.set c (some y') } := by
  refine h.toWorking.aimed (h.workStep hy) h.stores.of_kept (s.putCtx_settled c (some y')).toWorked
    (h.busy_put hy hp rfl rfl rfl rfl) ⟨h.target_put hy rfl haw, fun a => ?_⟩
  have hexp : y'.expects a = [] := by rw [Context.expects, hv]
  rw [hexp, ite_self]
  exact h.unawaited a

/-- The transaction posts an order, and awaits it. -/
theorem Unposted.post (hp : y'.phase ≠ .release) (hv : y'.awaited = some ⟨o.body.type, b⟩) (hot : o.body.type ≠ .release)
    (hop : o.poster = .context c) (hwb : w ≠ some b) (haw : ∀ a, y.target = some a → y'.awaits a) :
    Sound w (State.postOrder { s with contexts := s.contexts.set c (some y') } b o) := by
  have hst : StoresInOrder { s with contexts := s.contexts.set c (some y') } := h.stores.of_kept
  refine h.toWorking.aimed ((h.workStep hy).trans (workStep_postOrder_own
    (State.ctx_putCtx_self s c (some y')) (hy.entry.trans h.busy.mine) b hop))
    (hst.postOrder b o) ((s.putCtx_settled c (some y')).trans (State.postOrder_settled _ b o)).toWorked
    (h.busy_put hy hp rfl rfl rfl rfl) ⟨h.target_put hy rfl haw, fun a => ?_⟩
  have hun : (State.port { s with contexts := s.contexts.set c (some y') } a).awaitedBy c = [] := h.unawaited a
  rw [State.awaitedBy_postOrder, hun, List.nil_append, Context.expects, hv]
  by_cases hba : b = a
  · subst hba
    rw [if_pos ⟨rfl, hop⟩, if_neg hwb]
    exact (if_pos ⟨rfl, hot⟩).symm
  · have hexp : (if b = a ∧ o.body.type ≠ .release then [o.body.type] else []) = [] := if_neg fun hh => hba hh.1
    rw [if_neg fun hh => hba hh.1]
    simp only [hexp, ite_self]

end

/-! ### The Ack of an awaited order (R96 to R99, R102) -/

/-- A transaction whose order is acknowledged goes on to its next phase. -/
theorem Unposted.ackOutcome (h : Unposted none s e x c y) : Sound none (s.ackOutcome c) := by
  obtain ⟨a, sl, ht, hs, hr⟩ := h.aims
  obtain rfl := h.busy.mine
  have htarget {P : AntennaNo → Prop} (hP : P a) : ∀ a', y.target = some a' → P a' := fun a' ha' => by
    obtain rfl := Option.some.inj (ht.symm.trans ha'); exact hP
  cases hp : y.phase with
  | reserve =>
    by_cases hk : y.kind = .move
    · obtain ⟨⟨b, bsl⟩, hsrc⟩ := Option.isSome_iff_exists.mp (h.busy.source.mpr hk)
      rw [State.ackOutcome_cue h.busy.ctx hp hk hsrc ht hs h.busy.entry]
      exact h.post ⟨rfl, rfl, rfl, rfl, rfl⟩ (fun h => nomatch h) rfl (fun h => nomatch h) rfl (fun h => nomatch h)
        fun _ _ => ⟨b, bsl, hsrc, rfl⟩
    · rw [State.ackOutcome_summon h.busy.ctx hp hk ht hs h.busy.entry]
      exact h.post ⟨rfl, rfl, rfl, rfl, rfl⟩ (fun h => nomatch h) rfl (fun h => nomatch h) rfl (fun h => nomatch h)
        (htarget rfl)
  | cue =>
    rw [State.ackOutcome_arrival h.busy.ctx (.inl hp)]
    exact h.quiet ⟨rfl, rfl, rfl, rfl, rfl⟩ (fun h => nomatch h) rfl fun _ _ => .inl rfl
  | summon =>
    rw [State.ackOutcome_arrival h.busy.ctx (.inr hp)]
    exact h.quiet ⟨rfl, rfl, rfl, rfl, rfl⟩ (fun h => nomatch h) rfl fun _ _ => .inl rfl
  | arrival =>
    rw [State.ackOutcome_later h.busy.ctx (.inl hp)]
    refine h.quiet ⟨rfl, rfl, rfl, rfl, rfl⟩ h.early rfl fun a _ => ?_
    unfold Context.awaits
    rw [hp]
    exact .inl rfl
  | release => exact absurd hp h.early

/-! ### The end of an exchange -/

theorem State.endExchange_port (s : State) (a b : AntennaNo) (c : ContextNo) :
    ((s.endExchange a).port b).awaitedBy c = if a = b then ({ s.port a with inFlight := none } : Port).awaitedBy c
      else (s.port b).awaitedBy c := State.awaitedBy_mapPort s a b _ c

/-- An exchange ends that was not one of a transaction's order. -/
theorem Sound.endExchange (h : Sound w s) (a : AntennaNo)
    (ho : ∀ o, (s.port a).orderInFlight = some o → ∀ c, o.poster ≠ .context c) : Sound w (s.endExchange a) := by
  refine Sound.mapPort h a (fun c => ?_) (h.stores.endExchange a)
  cases hf : (s.port a).orderInFlight with
  | none => exact Port.awaitedBy_endNoOrder hf c
  | some o => rw [Port.awaitedBy_of_flying hf c, if_neg (ho o hf c)]; rfl

/-- A context that awaits an order at a port runs a transaction that awaits this order alone. -/
theorem Sound.awaiting (h : Sound none s) {k : OrderType} {ks : List OrderType} (hk : (s.port a).awaitedBy c = k :: ks) :
    ks = [] ∧ ∃ x y, Busy s y.entry x c y ∧ Aimed none s y.entry c y ∧ y.awaited = some ⟨k, a⟩ ∧ k ≠ .release := by
  cases hy : s.ctx c with
  | none => rw [h.agree.freed c hy a] at hk; cases hk
  | some y =>
    obtain ⟨x, hb, ha⟩ := h.context hy
    have ho := ha.orders a
    rw [if_neg (fun h => nomatch h), hk, Context.expects] at ho
    cases hv : y.awaited with
    | none => rw [hv] at ho; cases ho
    | some v =>
      rw [hv] at ho
      simp only at ho
      split at ho
      next hvp =>
        obtain ⟨rfl, hvt⟩ := hvp
        injection ho with hkt hks
        subst hkt
        exact ⟨hks, x, y, hb, ha, hv, hvt⟩
      next => cases ho

/-- A transaction in its Release phase awaits the Release of its source. -/
theorem Context.awaits_release (h : y.awaits a) (hp : y.phase = .release) : ∃ v, y.awaited = some v ∧ v.type = .release := by
  unfold Context.awaits at h
  rw [hp] at h
  obtain ⟨b, bsl, -, hv⟩ := h
  exact ⟨_, hv, rfl⟩

/-- The exchange of a transaction's order ends: the transaction awaits no order. -/
theorem Sound.outcome (h : Sound none s) (ho : (s.port a).orderInFlight = some o) (hp : o.poster = .context c) :
    ∃ e x y, Unposted none (s.endExchange a) e x c y := by
  have hfly := Port.awaitedBy_of_flying ho c
  rw [if_pos hp] at hfly
  obtain ⟨hrest, x, y, hb, ha, hv, hk⟩ := h.awaiting hfly
  have hearly : y.phase ≠ .release := fun hr => by
    obtain ⟨b, bsl, -, -, haw, -⟩ := ha.target
    obtain ⟨v, hv', ht⟩ := Context.awaits_release haw hr
    obtain rfl := Option.some.inj (hv.symm.trans hv')
    exact hk ht
  have hun : Unawaited (s.endExchange a) c := fun b => by
    rw [State.endExchange_port]
    split
    · exact hrest
    next hab =>
      rw [ha.orders b, if_neg (fun h => nomatch h), Context.expects, hv]
      exact if_neg fun hh => hab hh.1
  have hother (c' : ContextNo) (hc : c' ≠ c) :
      ({ s.port a with inFlight := none } : Port).awaitedBy c' = (s.port a).awaitedBy c' := by
    rw [Port.awaitedBy_of_flying ho c', if_neg fun h' => hc (Poster.context.inj (h'.symm.trans hp))]; rfl
  refine ⟨y.entry, x, y, ⟨⟨⟨h.stores.endExchange a, .none, (h.agree.but y.entry).step (workStep_mapPort_own hb.ctx rfl a hother),
    hb.kept rfl (fun _ => rfl) (fun _ _ => rfl) id, fun b hne => absurd (hun b) hne⟩, hearly⟩, ?_, hun⟩⟩
  obtain ⟨b, bsl, ht, hs, -, hr⟩ := ha.target
  exact ⟨b, bsl, ht, hs, hr hearly⟩

end Sys2Proof.Machine
end

section
/-! Every step keeps transactions in order, part nine: completion, the end of a Release, and the Arrival. -/

namespace Sys2Proof.Machine

variable {s t u : State} {a b : AntennaNo} {sl bsl : SlotNo} {e e' : EntryNo} {x x' : Entry} {c c' : ContextNo} {y y' : Context}
  {w : Option AntennaNo} {o : Order} {how : EmptiedBy}

/-! ### Completion (R104) -/

/-- An entry as it is without a transaction. -/
structure Entry.AtRest (x : Entry) : Prop where
  timed : Timed x
  context : x.context = none
  still : x.state ≠ .attaching ∧ x.state ≠ .moving
  window : x.windowExpired = false

theorem Idle.of (he : s.entry e = some x) (hx : x.AtRest) (hh : Holding s e x.serving) (hr : ∀ a sl, s.slot a sl ≠ .reserved e)
    (hf : ∀ c y, s.ctx c = some y → y.entry ≠ e) : Idle s e x :=
  ⟨he, hx.timed, hx.context, hx.still, hx.window, hh, hr, hf⟩

theorem Idle.atRest (h : Idle s e x) : x.AtRest := ⟨h.timed, h.context, h.still, h.window⟩

/-- An entry in a state without a transaction whose timers are those of that state. -/
theorem Entry.AtRest.of (hx : Timed x) (hc : x.context = none) (hst : x.state = .served ∨ x.state = .lost ∨ x.state = .unattached)
    (hw : x.windowExpired = false) : x.AtRest :=
  ⟨hx, hc, by rcases hst with h | h | h <;> rw [h] <;> decide, hw⟩

theorem Entry.offAir_atRest (x : Entry) : x.offAir.AtRest :=
  .of ⟨fun h => absurd rfl h, fun h => absurd rfl h, fun h => (nomatch h)⟩ rfl (.inr (.inr rfl)) rfl

theorem Timed.window_of (h : Timed x) (hst : x.state ≠ .lost) : x.windowExpired = false :=
  Bool.eq_false_iff.mpr fun hw => hst (h.window hw)

theorem EntryInOrder.serving_none (h : EntryInOrder x) (h1 : x.state ≠ .served) (h2 : x.state ≠ .moving) : x.serving = none := by
  by_contra hne
  exact (h.serving.mp (Option.isSome_iff_ne_none.mpr hne)).elim h1 h2

theorem Entry.complete_atRest (hx : Timed x) (hin : EntryInOrder x) (hst : x.state = .served ∨ x.state = .lost) (ms : Nat) :
    (x.complete ms).AtRest ∧ (x.complete ms).serving = x.serving := by
  rcases hst with hst | hst
  · rw [Entry.complete_served hst]
    exact ⟨.of ⟨fun _ => hst, hx.lost, hx.window⟩ rfl (.inl hst) (hx.window_of (by rw [hst]; decide)), rfl⟩
  · rw [Entry.complete_lost hst]
    split
    · exact ⟨x.offAir_atRest, (hin.serving_none (by rw [hst]; decide) (by rw [hst]; decide)).symm⟩
    next hw => exact ⟨.of ⟨hx.settle, hx.lost, hx.window⟩ rfl (.inr (.inl hst)) (Bool.eq_false_iff.mpr hw), rfl⟩

/-- A transaction that is about to complete: its beltpack has arrived, and it has neither slot nor order to wait for. -/
structure Completing (w : Option AntennaNo) (s : State) (e : EntryNo) (x : Entry) (c : ContextNo) (y : Context) : Prop where
  stores : StoresInOrder s
  closed : SweptClosed w s
  rest : AgreeBut (some e) w s
  entry : s.entry e = some x
  timed : Timed x
  ctx : s.ctx c = some y
  mine : y.entry = e
  only : ∀ c' y', s.ctx c' = some y' → y'.entry = e → c' = c
  arrived : x.state = .served ∨ x.state = .lost
  holding : Holding s e x.serving
  unreserved : ∀ a sl, s.slot a sl ≠ .reserved e
  unawaited : Unawaited s c

theorem Completing.workStep (h : Completing w s e x c y) : WorkStep w e (some c) s (s.complete c) := by
  obtain rfl := h.mine
  have hgiven (ms ms' : Nat) (z : Entry) : (Entry.complete { z with survey := z.survey.completeMove ms } ms').groupA = z.groupA ∧
      (Entry.complete { z with survey := z.survey.completeMove ms } ms').groupB = z.groupB := by
    have hg := Entry.complete_given { z with survey := z.survey.completeMove ms } ms'
    simp only [Entry.given, Prod.mk.injEq] at hg
    exact ⟨hg.2.2.1, hg.2.2.2.1⟩
  have hput : WorkStep w y.entry (some c) s (s.putCtx c none) :=
    workStep_putCtx (fun z hz => by obtain rfl := Option.some.inj (h.ctx.symm.trans hz); rfl) (fun _ h => (nomatch h))
      fun _ => h.unawaited
  have hmap := workStep_mapEntry (w := w) (s.putCtx c none) y.entry (hgiven s.candidateLifetime s.settleTime)
  rw [State.mapEntry_eq (s := s.putCtx c none) h.entry] at hmap
  refine hput.trans ((hmap.trans ?_).owning_none (State.ctx_putCtx_none _ _))
  rw [State.complete_eq h.ctx h.entry]
  exact .kept

/-- Completion frees the context and leaves the beltpack without a transaction. -/
theorem Completing.complete (h : Completing w s e x c y) : Sound w (s.complete c) := by
  have hstep := h.workStep
  obtain rfl := h.mine
  have hin := h.stores.entries _ x h.entry
  obtain ⟨hrest, hserving⟩ := Entry.complete_atRest (x := { x with survey := x.survey.completeMove s.candidateLifetime })
    ⟨h.timed.settle, h.timed.lost, h.timed.window⟩ (hin.setSurvey (hin.survey.completeMove _)) h.arrived s.settleTime
  have hslot (a : AntennaNo) (sl : SlotNo) : (s.complete c).slot a sl = s.slot a sl := by rw [State.complete_eq h.ctx h.entry]; rfl
  refine ⟨h.stores.complete c, h.closed.worked (s.complete_settled c).toWorked, (h.rest.step hstep).done (.idle (.of ?_ hrest ?_
    (fun a sl => by rw [hslot]; exact h.unreserved a sl) fun c' y' hy' hye => ?_))⟩
  · rw [State.complete_eq h.ctx h.entry]; exact get_set_self _ _ _
  · rw [hserving]; exact h.holding.of_slots hslot
  · have hctx : (s.complete c).ctx c' = if c = c' then none else s.ctx c' := by
      rw [State.complete_eq h.ctx h.entry, State.ctx_mk]
      split
      next hcc => subst hcc; exact get_set_self _ _ _
      next hcc => exact get_set_ne _ _ hcc
    rw [hctx] at hy'
    split at hy'
    · cases hy'
    next hne => exact hne (h.only c' y' hy' hye).symm

/-! ### A slot of the beltpack is freed -/

/-- From `s` to `t` the slot has been freed, with the lanes of an antenna that is not swept counted anew. -/
structure Freed (w : Option AntennaNo) (a : AntennaNo) (sl : SlotNo) (e : EntryNo) (s t : State) : Prop where
  step : WorkStep w e none s t
  stores : StoresInOrder t
  closed : SweptClosed w t
  roster : t.roster = s.roster
  contexts : t.contexts = s.contexts
  ports : t.ports = s.ports
  queue : t.queue = s.queue
  slot : ∀ b bsl, t.slot b bsl = if a = b ∧ sl = bsl then .free else s.slot b bsl

theorem Sound.freed (h : Sound w s) (he : s.entry e = some x) (hs : (s.slot a sl).entry? = some e) :
    Freed w a sl e s (s.freeSlot a sl) := by
  have heq := State.freeSlot_held he hs
  refine ⟨workStep_freeSlot he hs h.stores, h.stores.freeSlot a sl, h.closed.worked (s.freeSlot_worked a sl), ?_, ?_, ?_, ?_,
    fun b bsl => ?_⟩
  · rw [heq]
  · rw [heq]
  · rw [heq]
  · rw [heq]
  · rw [heq]; exact s.slot_written a b sl bsl .free _

theorem Sound.swept (h : Sound (some a) s) (hs : (s.slot a sl).entry? = some e) : Freed (some a) a sl e s (s.setSlot a sl .free) :=
  ⟨workStep_sweptSlot hs, h.stores.setSlot a sl .free, h.closed.worked (State.setSlot_settled (.inr rfl)).toWorked, rfl, rfl, rfl,
    rfl, fun b bsl => State.slot_setSlot s a b sl bsl .free⟩

section
variable (hf : Freed w a sl e s t)
include hf

theorem Freed.entry (e' : EntryNo) : t.entry e' = s.entry e' := by rw [State.entry, hf.roster]; rfl

theorem Freed.ctx (c : ContextNo) : t.ctx c = s.ctx c := by rw [State.ctx, hf.contexts]; rfl

theorem Freed.port (b : AntennaNo) : t.port b = s.port b := by rw [State.port, hf.ports]; rfl

theorem Freed.holds {b : AntennaNo} {bsl : SlotNo} (hh : Holds t b bsl e) : Holds s b bsl e := by
  rw [Holds, hf.slot] at hh
  split at hh
  · exact hh.elim (fun h => nomatch h) fun h => h.elim (fun h => nomatch h) fun h => nomatch h
  · exact hh

theorem Freed.reserved {b : AntennaNo} {bsl : SlotNo} (hr : t.slot b bsl = .reserved e) : s.slot b bsl = .reserved e := by
  rw [hf.slot] at hr
  split at hr
  · cases hr
  · exact hr

/-- The freed slot was not the one that serves the beltpack. -/
theorem Freed.holding {sv : Option (AntennaNo × SlotNo)} (h : Holding s e sv) (hs : s.slot a sl ≠ .occupied e) : Holding t e sv :=
  h.of (fun _ _ => hf.holds) fun b bsl => by
    rw [← h.occupied b bsl, hf.slot]
    split
    next hab =>
      obtain ⟨rfl, rfl⟩ := hab
      exact ⟨fun h => (nomatch h), fun h => absurd h hs⟩
    next => rfl

/-- The freed slot was the one that served the beltpack. -/
theorem Freed.holding_none {sv : Option (AntennaNo × SlotNo)} (h : Holding s e sv) (hs : s.slot a sl = .occupied e) : Holding t e none :=
  h.of (fun _ _ => hf.holds) fun b bsl => by
    refine ⟨fun ho => ?_, fun h => nomatch h⟩
    rw [hf.slot] at ho
    split at ho
    · cases ho
    next hab =>
      have h1 := (h.occupied a sl).mp hs
      have h2 := (h.occupied b bsl).mp ho
      rw [h1] at h2
      injection h2 with h2
      injection h2 with ha hsl
      exact absurd ⟨ha, hsl⟩ hab

theorem Freed.free (h : ∀ c y, s.ctx c = some y → y.entry ≠ e) (c : ContextNo) (y : Context) (hy : t.ctx c = some y) :
    y.entry ≠ e := h c y ((hf.ctx c).symm.trans hy)

theorem Freed.idle (h : Idle s e x) (hs : s.slot a sl ≠ .occupied e) : Idle t e x :=
  .of ((hf.entry e).trans h.entry) h.atRest (hf.holding h.holding hs) (fun _ _ hr => h.unreserved _ _ (hf.reserved hr))
    (hf.free h.free)

theorem Freed.busy (h : Busy s e x c y) (hs : s.slot a sl ≠ .occupied e)
    (hsrc : ¬ (y.phase = .release ∧ y.source = some (a, sl))) : Busy t e x c y where
  entry := (hf.entry e).trans h.entry
  timed := h.timed
  context := h.context
  ctx := (hf.ctx c).trans h.ctx
  mine := h.mine
  only c' y' hy' := h.only c' y' ((hf.ctx c').symm.trans hy')
  unasked := by rw [HasRequest, hf.queue]; exact h.unasked
  fits := h.fits
  source := h.source
  releasing hp b bsl hb := by
    rw [hf.slot, if_neg]
    · exact h.releasing hp b bsl hb
    · rintro ⟨rfl, rfl⟩; exact hsrc ⟨hp, hb⟩
  holding := hf.holding h.holding hs
  reserved b bsl hr := h.reserved b bsl (hf.reserved hr)

theorem Freed.orders (ha : Aimed w s e c y) (b : AntennaNo) : (t.port b).awaitedBy c = if w = some b then [] else y.expects b := by
  rw [hf.port]; exact ha.orders b

/-- The freed slot was not the target of the transaction. -/
theorem Freed.aimed (ha : Aimed w s e c y) (hs : y.phase ≠ .release → s.slot a sl ≠ .reserved e) : Aimed w t e c y := by
  refine ⟨?_, hf.orders ha⟩
  obtain ⟨b, bsl, ht, hts, haw, hr⟩ := ha.target
  refine ⟨b, bsl, ht, hts, haw, fun hp => ?_⟩
  rw [hf.slot, if_neg]
  · exact hr hp
  · rintro ⟨rfl, rfl⟩; exact hs hp (hr hp)

end

/-! ### The end of a Release (R50, R137) -/

/-- A transaction in its Release phase awaits no order but the Release, which is its slot's. -/
theorem Aimed.released (ha : Aimed w s e c y) (hp : y.phase = .release) : Unawaited s c := fun b => by
  obtain ⟨a, sl, -, -, haw, -⟩ := ha.target
  obtain ⟨v, hv, ht⟩ := Context.awaits_release haw hp
  have hexp : y.expects b = [] := by
    rw [Context.expects, hv]
    exact if_neg fun h => h.2 ht
  rw [ha.orders b, hexp, ite_self]

/-- The beltpack of a transaction in its Release phase has arrived. -/
theorem Busy.arrived (h : Busy s e x c y) (hp : y.phase = .release) : x.state = .served ∨ x.state = .lost := by
  have hf := h.fits
  unfold Context.fits at hf
  cases hst : x.state with
  | served => exact .inl rfl
  | lost => exact .inr rfl
  | unattached => rw [hst] at hf; exact hf.elim
  | attaching => rw [hst] at hf; exact absurd hp hf.2
  | moving => rw [hst] at hf; exact absurd hp hf.2.1

/-- A Releasing slot has been freed: the transaction whose source it was completes. -/
theorem Sound.afterRelease (h : Sound w s) (hs : s.slot a sl = .releasing e) (hf : Freed w a sl e s t) :
    Sound w (t.afterRelease a sl e) := by
  have hno : s.slot a sl ≠ .occupied e := by rw [hs]; exact fun h => nomatch h
  have hrest := (h.agree.but e).step hf.step
  have hby : t.releasedBy a sl e = s.releasedBy a sl e := State.releasedBy_of hf.roster hf.contexts
  rw [State.afterRelease, hby]
  cases h.beltpack e with
  | absent hn => exact absurd (.inr (.inr hs)) (hn.slots a sl)
  | idle hi =>
    rw [State.releasedBy_none hi.entry fun c y hc => by rw [hi.context] at hc; cases hc]
    exact ⟨hf.stores, hf.closed, hrest.done (.idle (hf.idle hi hno))⟩
  | @busy x c y hb ha =>
    by_cases hsrc : y.phase = .release ∧ y.source = some (a, sl)
    · rw [State.releasedBy_some hb.entry hb.context hb.ctx hsrc]
      have hrun := ha.released hsrc.1
      exact Completing.complete ⟨hf.stores, hf.closed, hrest, (hf.entry e).trans hb.entry, hb.timed, (hf.ctx c).trans hb.ctx, hb.mine,
        fun c' y' hy' => hb.only c' y' ((hf.ctx c').symm.trans hy'), hb.arrived hsrc.1, hf.holding hb.holding hno,
        fun b bsl hr => (hb.reserved b bsl (hf.reserved hr)).2.2 hsrc.1, fun b => by rw [hf.port]; exact hrun b⟩
    · rw [State.releasedBy_none hb.entry fun c' y' hc' hy' => by
        obtain rfl := Option.some.inj (hb.context.symm.trans hc')
        obtain rfl := Option.some.inj (hb.ctx.symm.trans hy')
        exact hsrc]
      exact ⟨hf.stores, hf.closed, hrest.done (.busy (hf.busy hb hno hsrc) (hf.aimed ha fun _ => by
        rw [hs]; exact fun h => nomatch h))⟩

/-- A slot names a beltpack of the roster. -/
theorem Sound.named (h : Sound w s) (hs : (s.slot a sl).entry? = some e) : ∃ x, s.entry e = some x := by
  cases h.beltpack e with
  | absent hn => exact absurd (Slot.entry?_some.mp hs) (hn.slots a sl)
  | @idle x hi => exact ⟨x, hi.entry⟩
  | @busy x c y hb _ => exact ⟨x, hb.entry⟩

/-! ### Antenna records (R41, R141) -/

theorem Sound.setChangeFlag (h : Sound none s) (a : AntennaNo) : Sound none (s.setChangeFlag a) := by
  unfold State.setChangeFlag
  simp only
  split
  · exact h
  · have hm := h.mapAnt a (f := fun r => { r with changed := true })
      (h.stores.mapAnt _ (fun hr => hr) fun _ => rfl) fun _ => ⟨rfl, rfl⟩
    exact (hm.mapLink _).queueNotice _

/-- A change of an antenna record but for slots and lanes, with its notice. -/
theorem Sound.changeAntenna (h : Sound none s) (a : AntennaNo) {f : Antenna → Antenna}
    (hf : ∀ r, (f r).slots = r.slots ∧ (f r).lanes = r.lanes) (hr : AntennaInOrder (s.ant a) → AntennaInOrder (f (s.ant a)))
    (hl : s.running = false → (f (s.ant a)).link = .absent) : Sound none (s.changeAntenna a f) := by
  have hm := h.mapAnt a (h.stores.mapAnt a hr fun hrun => (hl hrun).trans (h.stores.stopped hrun a).1.symm) hf
  unfold State.changeAntenna
  simp only
  split
  · exact hm
  · exact hm.setChangeFlag a

theorem Sound.drainTest (h : Sound none s) (a : AntennaNo) (how : EmptiedBy) : Sound none (s.drainTest a how) := by
  unfold State.drainTest
  split
  · refine (h.changeAntenna a ?_ ?_ ?_).queueNotice _
    · exact fun _ => ⟨rfl, rfl⟩
    · exact id
    · exact fun hr => (h.stores.stopped hr a).1
  · exact h

theorem Sound.endRelease (h : Sound none s) (a : AntennaNo) (sl : SlotNo) : Sound none (s.endRelease a sl) := by
  unfold State.endRelease
  split
  next e hs =>
    have hse : (s.slot a sl).entry? = some e := by rw [hs]; rfl
    obtain ⟨x, hx⟩ := h.named hse
    exact (h.afterRelease hs (h.freed hx hse)).drainTest a _
  all_goals exact h

theorem Sound.recordReleaseTimeout (h : Sound none s) (e : EntryNo) : Sound none (s.recordReleaseTimeout e) := by
  unfold State.recordReleaseTimeout
  refine Sound.mapLink (Sound.mapMarks h e (h.stores.mapMarks e ?_) ?_ ?_) _
  · exact fun _ => ⟨rfl, rfl, rfl, rfl⟩
  · exact fun _ => ⟨rfl, rfl, rfl, rfl, rfl, rfl⟩
  · exact fun _ => ⟨rfl, rfl⟩

/-! ### Outcomes at the poster -/

/-- The outcome of the order whose exchange has ended goes to its poster (R50, R95). -/
theorem Sound.giveOutcome (h : Sound none s) (ho : (s.port a).orderInFlight = some o) (v : OrderOutcome) :
    Sound none ((s.endExchange a).giveOutcome a o v) := by
  cases hp : o.poster with
  | nobody =>
    rw [State.giveOutcome, hp]
    exact h.endExchange a fun o' ho' c hc => by
      obtain rfl := Option.some.inj (ho.symm.trans ho')
      rw [hp] at hc; cases hc
  | context c =>
    obtain ⟨e, x, y, hu⟩ := h.outcome ho hp
    rw [State.giveOutcome_context hp]
    cases v with
    | acked => exact hu.ackOutcome
    | refused => exact hu.toWorking.dispose (k := .refused) (by decide) (by decide)
    | timedOut => exact hu.toWorking.dispose (k := .orderLate) (by decide) (by decide)
  | slot sl =>
    have hend := h.endExchange a fun o' ho' c hc => by
      obtain rfl := Option.some.inj (ho.symm.trans ho')
      rw [hp] at hc; cases hc
    rw [State.giveOutcome, hp]
    cases v with
    | acked | refused => exact hend.endRelease a sl
    | timedOut =>
      cases he : ((s.endExchange a).slot a sl).entry? with
      | none => simp only [he]; exact hend.endRelease a sl
      | some e =>
        simp only [he]
        split
        · exact (hend.recordReleaseTimeout e).endRelease a sl
        · exact hend.endRelease a sl

end Sys2Proof.Machine
end

section
/-! Every step keeps transactions in order, part ten: the Arrival (R100, R101, R158). -/

namespace Sys2Proof.Machine

variable {s t u : State} {a b : AntennaNo} {sl bsl : SlotNo} {e e' : EntryNo} {x x' z : Entry} {c c' : ContextNo} {y y' : Context}
  {w : Option AntennaNo} {o : Order}

/-! ### The target's part of an Arrival -/

/-- The state of an Arrival after the target's part of it (R8, R100). -/
abbrev State.arriving (s : State) (c : ContextNo) (y : Context) (z : Entry) (a : AntennaNo) (sl : SlotNo) : State :=
  { s.stopAwaiting c with
    contexts := s.contexts.set c (some { y with arrivalTimer := none, awaited := none })
    antennas := s.antennas.set a { s.ant a with slots := (s.ant a).slots.set sl (.occupied y.entry) }
    link := if z.state = .attaching ∨ z.state = .lost then s.link.queueNotice (.attached y.entry z.id a sl) else s.link
    roster := s.roster.set y.entry (some (z.arrive a sl (y.source.map (·.1)))) }

theorem Entry.arrive_timed (x : Entry) (a : AntennaNo) (sl : SlotNo) (b : Option AntennaNo) : Timed (x.arrive a sl b) :=
  ⟨fun _ => rfl, fun h => absurd rfl h, fun h => (nomatch h)⟩

section
variable (h : Running w s e x c y) (hres : s.slot a sl = .reserved e)
include h

/-- The order is left, and the slot it was for is now the serving one. -/
theorem Running.arriving_step (hres : s.slot a sl = .reserved e) : WorkStep w e (some c) s (s.arriving c y x a sl) := by
  obtain rfl := h.busy.mine
  have hy := h.busy.ctx
  have h1 := workStep_mapCtx (w := w) hy rfl (f := fun y => { y with arrivalTimer := none }) rfl
  have hy1 : (s.mapCtx c fun y => { y with arrivalTimer := none }).ctx c = some { y with arrivalTimer := none } := by
    rw [State.mapCtx_eq hy]; exact get_set_self _ _ _
  have h2 := h1.trans (workStep_stopAwaiting hy1 rfl)
  rw [State.letGo_eq hy] at h2
  have hslot : (State.slot { s with contexts := s.contexts.set c (some { y with arrivalTimer := none, awaited := none }),
                                    ports := (s.stopAwaiting c).ports } a sl) = .reserved y.entry := hres
  have h3 := h2.trans ((workStep_setSlot (v := .occupied y.entry) (e := y.entry) (by rw [hslot]; rfl) rfl).owning
    (get_set_self _ _ _) rfl)
  have hctx : (State.setSlot { s with
      contexts := s.contexts.set c (some { y with arrivalTimer := none, awaited := none }),
      ports := (s.stopAwaiting c).ports } a sl (.occupied y.entry)).ctx c = some { y with arrivalTimer := none, awaited := none } :=
    get_set_self _ _ _
  have h4 := h3.trans ((workStep_mapEntry (w := w) _ y.entry (f := (·.arrive a sl (y.source.map (·.1)))) fun _ => ⟨rfl, rfl⟩).owning
    hctx rfl)
  have he' : s.roster.get y.entry = some x := h.busy.entry
  simp only [State.setSlot_eq, State.mapEntry_mk (h := he')] at h4
  rw [State.arriving, State.stopAwaiting_eq hy]
  exact h4.trans (WorkStep.owning .kept (get_set_self _ _ _) rfl)

omit h in
theorem State.ctx_arriving (c' : ContextNo) : (s.arriving c y x a sl).ctx c' =
    if c = c' then some { y with arrivalTimer := none, awaited := none } else s.ctx c' := by
  rw [State.arriving, State.ctx_mk]
  split
  next hcc => subst hcc; exact get_set_self _ _ _
  next hcc => exact get_set_ne _ _ hcc

theorem Running.arriving_slot (b : AntennaNo) (bsl : SlotNo) : (s.arriving c y x a sl).slot b bsl =
    if a = b ∧ sl = bsl then .occupied e else s.slot b bsl := by
  rw [← h.busy.mine, ← State.slot_setSlot, State.setSlot_eq]
  rfl

theorem Running.arriving_entry : (s.arriving c y x a sl).entry e = some (x.arrive a sl (y.source.map (·.1))) := by
  obtain rfl := h.busy.mine
  exact get_set_self _ _ _

theorem Running.arriving_unawaited : Unawaited (s.arriving c y x a sl) c := unawaited_stopAwaiting h.busy.ctx h.posted

theorem Running.arriving_queue : (s.arriving c y x a sl).queue = s.queue := by
  rw [State.arriving, State.stopAwaiting_eq h.busy.ctx]

theorem Running.arriving_stores : StoresInOrder (s.arriving c y x a sl) := by
  obtain rfl := h.busy.mine
  have hs := ((h.stores.mapCtx c fun y => { y with arrivalTimer := none }).stopAwaiting c)
  rw [State.letGo_eq h.busy.ctx] at hs
  have hm := (hs.setSlot a sl (.occupied y.entry)).mapEntry y.entry (f := (·.arrive a sl (y.source.map (·.1))))
    (fun _ _ hx => hx.arrive a sl _) fun _ => rfl
  have he' : s.roster.get y.entry = some x := h.busy.entry
  simp only [State.setSlot_eq, State.mapEntry_mk (h := he')] at hm
  rw [State.arriving, State.stopAwaiting_eq h.busy.ctx]
  exact hm.of_kept

/-- Only the target slot was Reserved. -/
theorem Running.arriving_unreserved (hres : s.slot a sl = .reserved e) (b : AntennaNo) (bsl : SlotNo) :
    (s.arriving c y x a sl).slot b bsl ≠ .reserved e := fun hr => by
  rw [h.arriving_slot] at hr
  split at hr
  · cases hr
  next hab =>
    obtain ⟨h1, h2, -⟩ := h.busy.reserved a sl hres
    obtain ⟨h1', h2', -⟩ := h.busy.reserved b bsl hr
    exact hab ⟨Option.some.inj (h1.symm.trans h1'), Option.some.inj (h2.symm.trans h2')⟩

/-- The Arrival of a transaction without a source completes it. -/
theorem Running.arrive_sourceless (h0 : w = none) (hres : s.slot a sl = .reserved e) (hno : x.serving = none) :
    Sound w ((s.arriving c y x a sl).complete c) := by
  have hslot := h.arriving_slot (a := a) (sl := sl)
  have hctx := State.ctx_arriving (s := s) (c := c) (y := y) (x := x) (a := a) (sl := sl)
  subst h0
  refine Completing.complete ⟨h.arriving_stores, .none, h.rest.step (h.arriving_step hres), h.arriving_entry,
    x.arrive_timed a sl _, (hctx c).trans (if_pos rfl), h.busy.mine, fun c' y' hy' hye => ?_, .inl rfl, ?_, fun b bsl hr => ?_,
    h.arriving_unawaited⟩
  · rw [hctx] at hy'
    split at hy'
    next hcc => exact hcc.symm
    next => exact h.busy.only c' y' hy' hye
  · refine h.busy.holding.of (fun b bsl hh => ?_) fun b bsl => ?_
    · rw [Holds, hslot] at hh
      split at hh
      next hab => obtain ⟨rfl, rfl⟩ := hab; exact .inl hres
      next => exact hh
    · rw [hslot]
      split
      next hab => obtain ⟨rfl, rfl⟩ := hab; exact ⟨fun _ => rfl, fun _ => rfl⟩
      next hab =>
        rw [h.busy.holding.occupied, hno]
        refine ⟨fun h => (nomatch h), fun h => ?_⟩
        injection h with h
        injection h with h1 h2
        exact absurd ⟨h1, h2⟩ hab
  · exact h.arriving_unreserved hres b bsl hr

end

/-! ### The Release phase of a Move (R49, R103) -/

/-- The context of a Move that has arrived. -/
def Context.leaving (y : Context) (b : AntennaNo) : Context :=
  { y with arrivalTimer := none, phase := .release, awaited := some ⟨.release, b⟩ }

/-- The slots of a beltpack that has arrived at one slot and releases the other. -/
abbrev LeavesFor (s t : State) (e : EntryNo) (b : AntennaNo) (bsl : SlotNo) (a : AntennaNo) (sl : SlotNo) : Prop :=
  ∀ p psl, t.slot p psl = if b = p ∧ bsl = psl then .releasing e else if a = p ∧ sl = psl then .occupied e else s.slot p psl

section
variable (h : Running w s e x c y) (hres : s.slot a sl = .reserved e) (hocc : s.slot b bsl = .occupied e)
  (hslot : LeavesFor s t e b bsl a sl)
include h hres hocc

omit h in
theorem leaving_apart : ¬ (b = a ∧ bsl = sl) := by
  rintro ⟨rfl, rfl⟩
  rw [hres] at hocc; cases hocc

include hslot

theorem Running.leaving_holding : Holding t e (some (a, sl)) := by
  have hne := leaving_apart hres hocc
  refine h.busy.holding.of (fun p psl hh => ?_) fun p psl => ?_
  · rw [Holds, hslot] at hh
    split at hh
    next hab => obtain ⟨rfl, rfl⟩ := hab; exact .inr (.inl hocc)
    next =>
      split at hh
      next hab => obtain ⟨rfl, rfl⟩ := hab; exact .inl hres
      next => exact hh
  · rw [hslot]
    split
    next hab =>
      obtain ⟨rfl, rfl⟩ := hab
      refine ⟨fun h => (nomatch h), fun h => ?_⟩
      injection h with h
      injection h with h1 h2
      exact absurd ⟨h1.symm, h2.symm⟩ hne
    next hpb =>
      split
      next hab => obtain ⟨rfl, rfl⟩ := hab; exact ⟨fun _ => rfl, fun _ => rfl⟩
      next hab =>
        refine ⟨fun ho => ?_, fun h => ?_⟩
        · have h1 := (h.busy.holding.occupied b bsl).mp hocc
          have h2 := (h.busy.holding.occupied p psl).mp ho
          rw [h1] at h2
          injection h2 with h2
          injection h2 with h2 h3
          exact absurd ⟨h2, h3⟩ hpb
        · injection h with h
          injection h with h1 h2
          exact absurd ⟨h1, h2⟩ hab

omit hocc in
theorem Running.leaving_unreserved (p : AntennaNo) (psl : SlotNo) : t.slot p psl ≠ .reserved e := fun hr => by
  rw [hslot] at hr
  split at hr
  · cases hr
  · split at hr
    · cases hr
    next hab =>
      obtain ⟨h1, h2, -⟩ := h.busy.reserved a sl hres
      obtain ⟨h1', h2', -⟩ := h.busy.reserved p psl hr
      exact hab ⟨Option.some.inj (h1.symm.trans h1'), Option.some.inj (h2.symm.trans h2')⟩

theorem Running.leaving_busy (hk : y.kind = .move) (hsrc : y.source = some (b, bsl))
    (he : t.entry e = some (x.arrive a sl (y.source.map (·.1))))
    (hc : ∀ c', t.ctx c' = if c = c' then some (y.leaving b) else s.ctx c') (hq : t.queue = s.queue) :
    Busy t e (x.arrive a sl (y.source.map (·.1))) c (y.leaving b) where
  entry := he
  timed := x.arrive_timed a sl _
  context := h.busy.context
  ctx := (hc c).trans (if_pos rfl)
  mine := h.busy.mine
  only c' y' hy' hye := by
    rw [hc] at hy'
    split at hy'
    next hcc => exact hcc.symm
    next => exact h.busy.only c' y' hy' hye
  unasked := by rw [HasRequest, hq]; exact h.busy.unasked
  fits := ⟨hk, rfl⟩
  source := h.busy.source
  releasing _ p psl hp := by
    obtain ⟨rfl, rfl⟩ := Prod.mk.inj (Option.some.inj (hsrc.symm.trans hp))
    rw [hslot, if_pos ⟨rfl, rfl⟩]
  holding := h.leaving_holding hres hocc hslot
  reserved p psl hr := absurd hr (h.leaving_unreserved hres hslot p psl)

end

/-- The transaction awaits the Release of its source. -/
theorem Busy.leaving_aimed (hres : s.slot a sl = .reserved e) (h : Busy s e x c y) (hsrc : y.source = some (b, bsl)) (hun : Unawaited t c) :
    Aimed w t e c (y.leaving b) := by
  obtain ⟨h1, h2, -⟩ := h.reserved a sl hres
  refine ⟨⟨a, sl, h1, h2, ⟨b, bsl, hsrc, rfl⟩, fun h => absurd rfl h⟩, fun p => ?_⟩
  have hexp : (y.leaving b).expects p = [] := if_neg fun h => h.2 rfl
  rw [hexp, ite_self]
  exact hun p

/-- The Arrival of a Move begins its Release phase (R100, R103). -/
theorem Running.arrive_move (h : Running none s e x c y) (hres : s.slot a sl = .reserved e) (hk : y.kind = .move)
    (hsrc : y.source = some (b, bsl)) (hserv : x.serving = some (b, bsl)) :
    Sound none ((s.arriving c y x a sl).beginRelease c b bsl) := by
  have hocc : s.slot b bsl = .occupied e := (h.busy.holding.occupied b bsl).mpr hserv
  have hne := leaving_apart hres hocc
  have hslot := h.arriving_slot (a := a) (sl := sl)
  have hctx := State.ctx_arriving (s := s) (c := c) (y := y) (x := x) (a := a) (sl := sl)
  have hentry := h.arriving_entry (a := a) (sl := sl)
  have hstep := h.arriving_step hres
  have hun := h.arriving_unawaited (a := a) (sl := sl)
  have hstores := h.arriving_stores (a := a) (sl := sl)
  have hqueue := h.arriving_queue (a := a) (sl := sl)
  generalize s.arriving c y x a sl = u at *
  have huc : u.ctx c = some { y with arrivalTimer := none, awaited := none } := (hctx c).trans (if_pos rfl)
  have hub : u.slot b bsl = .occupied e := (hslot b bsl).trans ((if_neg fun h => hne ⟨h.1.symm, h.2.symm⟩).trans hocc)
  have hbegin : u.beginRelease c b bsl = (u.putCtx c (some (y.leaving b))).releaseSlot b bsl := by
    rw [State.beginRelease, State.mapCtx_eq huc]; rfl
  have hput : WorkStep none e (some c) u (u.putCtx c (some (y.leaving b))) :=
    workStep_putCtx (fun z hz => by obtain rfl := Option.some.inj (huc.symm.trans hz); exact h.busy.mine)
      (fun z hz => by obtain rfl := Option.some.inj hz; exact h.busy.mine) fun h => nomatch h
  have hrel : WorkStep none e none (u.putCtx c (some (y.leaving b))) ((u.putCtx c (some (y.leaving b))).releaseSlot b bsl) :=
    workStep_releaseSlot (by change (u.slot b bsl).entry? = some e; rw [hub]; rfl)
  have hread := State.slot_releaseSlot (s := u.putCtx c (some (y.leaving b))) hentry (.inr hub)
  have hawait := State.awaitedBy_releaseSlot (u.putCtx c (some (y.leaving b))) b (sl := bsl) (c := c)
  have hst := (hstores.putCtx c (some (y.leaving b))).releaseSlot b bsl
  have heq := State.releaseSlot_eq (u.putCtx c (some (y.leaving b))) b bsl
  have hvc : (u.putCtx c (some (y.leaving b))).ctx c = some (y.leaving b) := State.ctx_putCtx_self _ _ _
  have hvo (c' : ContextNo) (hc : c ≠ c') : (u.putCtx c (some (y.leaving b))).ctx c' = s.ctx c' :=
    (State.ctx_putCtx_ne _ _ hc).trans ((hctx c').trans (if_neg hc))
  rw [hbegin]
  generalize (u.putCtx c (some (y.leaving b))).releaseSlot b bsl = t at *
  have hslots : LeavesFor s t e b bsl a sl := fun p psl => (hread p psl).trans (by
    split
    · rfl
    · exact hslot p psl)
  refine ⟨hst, .none, (h.rest.step ((hstep.trans hput).trans (hrel.owning hvc h.busy.mine))).done (.busy
    (h.leaving_busy hres hocc hslots hk hsrc (by rw [heq]; exact hentry) (fun c' => ?_) (by rw [heq]; exact hqueue))
    (h.busy.leaving_aimed hres hsrc fun p => (hawait p).trans (hun p)))⟩
  rw [heq]
  split
  next hcc => subst hcc; exact hvc
  next hcc => exact hvo c' hcc

/-! ### Arrivals offered to a transaction (R100, R101, R158) -/

theorem Sound.running (h : Sound none s) (hb : Busy s e x c y) (ha : Aimed none s e c y) : Running none s e x c y :=
  ⟨h.stores, h.closed, h.agree.but e, hb, fun a hne => by
    rw [ha.orders a, if_neg (fun h => nomatch h), Context.expects] at hne
    split at hne
    · exact absurd rfl hne
    next v hv =>
      split at hne
      next hp => exact ⟨v, hv, hp.1⟩
      next => exact absurd rfl hne⟩

theorem Sound.working (h : Sound none s) (hb : Busy s e x c y) (ha : Aimed none s e c y) (hp : y.phase ≠ .release) :
    Working none s e x c y := ⟨h.running hb ha, hp⟩

/-- A Move before its Arrival is served at its source (R93). -/
theorem Busy.source_serving (h : Busy s e x c y) (hp : y.phase ≠ .release) (hk : y.kind = .move) : y.source = x.serving ∧ x.state = .moving := by
  have hf := h.fits
  unfold Context.fits at hf
  cases hst : x.state with
  | unattached => rw [hst] at hf; exact hf.elim
  | attaching => rw [hst] at hf; exact absurd hk hf.1
  | moving => rw [hst] at hf; exact ⟨hf.2.2, rfl⟩
  | served => rw [hst] at hf; exact absurd hf.2 hp
  | lost =>
    rw [hst] at hf
    rcases hf with hf | hf
    · rw [hk] at hf; exact absurd hf.1 (by decide)
    · exact absurd hf.2 hp

/-- A transaction that is no Move is served nowhere before its Arrival. -/
theorem Busy.serving_none (h : Busy s e x c y) (hin : EntryInOrder x) (hp : y.phase ≠ .release) (hk : y.kind ≠ .move) :
    x.serving = none := by
  have hf := h.fits
  unfold Context.fits at hf
  refine hin.serving_none (fun hst => ?_) fun hst => ?_
  · rw [hst] at hf; exact hp hf.2
  · rw [hst] at hf; exact hk hf.1

theorem Sound.takeTargetArrival (h : Sound none s) (hb : Busy s e x c y) (ha : Aimed none s e c y) (haw : y.awaitsArrival a sl = true) :
    Sound none (s.takeTargetArrival c y a sl) := by
  obtain ⟨ht, hs, hp⟩ := Context.awaitsArrival_iff.mp haw
  have hearly : y.phase ≠ .release := by rcases hp with hp | hp | hp <;> rw [hp] <;> decide
  obtain ⟨a', sl', ht', hs', -, hr⟩ := ha.target
  obtain rfl := Option.some.inj (ht.symm.trans ht')
  obtain rfl := Option.some.inj (hs.symm.trans hs')
  have hrun := h.running hb ha
  have hz : s.entry y.entry = some x := by rw [hb.mine]; exact hb.entry
  rw [State.takeTargetArrival_eq hb.ctx hz]
  simp only
  split
  next b bsl hk hsrc => exact hrun.arrive_move (hr hearly) hk hsrc ((hb.source_serving hearly hk).1.symm.trans hsrc)
  next hno =>
    refine hrun.arrive_sourceless rfl (hr hearly) (hb.serving_none (h.stores.entries e x hb.entry) hearly fun hk => ?_)
    obtain ⟨⟨b, bsl⟩, hsrc⟩ := Option.isSome_iff_exists.mp (hb.source.mpr hk)
    exact hno b bsl hk hsrc

theorem Sound.offerArrival (h : Sound none s) (hy : s.ctx c = some y) (a : AntennaNo) (sl : SlotNo) :
    Sound none (s.offerArrival c y a sl) := by
  obtain ⟨x, hb, ha⟩ := h.context hy
  unfold State.offerArrival
  split
  next haw => exact h.takeTargetArrival hb ha haw
  next =>
    split
    next hfb =>
      obtain ⟨-, -, hp⟩ := Context.fallsBack_iff.mp hfb
      exact (h.working hb ha (by rw [hp]; decide)).dispose (k := .noArrival) (by decide) (by decide)
    next => exact h.latchStray

theorem Sound.takeArrival (h : Sound none s) (a : AntennaNo) (id : BeltpackId) (slot : Byte) : Sound none (s.takeArrival a id slot) := by
  unfold State.takeArrival
  split
  · split
    · exact h.latchStray
    next y hy => exact h.offerArrival hy a _
  · exact h.latchStray

end Sys2Proof.Machine
end

section
/-! Every step keeps transactions in order, part eleven: beltpacks that leave their antenna or the air, and the reports of Sightings, Seeks and Sign-offs. -/

namespace Sys2Proof.Machine

variable {s t u : State} {a b : AntennaNo} {sl bsl : SlotNo} {e e' : EntryNo} {x x' z : Entry} {c c' : ContextNo} {y y' : Context}
  {w : Option AntennaNo} {o : Order} {f : Entry → Entry}

/-! ### A beltpack without a transaction, whose entry is about to change -/

/-- The beltpack has no transaction, and holds the slots that an entry with the serving reference `sv` does. -/
structure Parted (w : Option AntennaNo) (s : State) (e : EntryNo) (x : Entry) (sv : Option (AntennaNo × SlotNo)) : Prop where
  stores : StoresInOrder s
  closed : SweptClosed w s
  rest : AgreeBut (some e) w s
  entry : s.entry e = some x
  holding : Holding s e sv
  unreserved : ∀ a sl, s.slot a sl ≠ .reserved e
  free : ∀ c y, s.ctx c = some y → y.entry ≠ e

variable {sv : Option (AntennaNo × SlotNo)}

theorem Sound.parted (h : Sound w s) (hi : Idle s e x) : Parted w s e x x.serving :=
  ⟨h.stores, h.closed, h.agree.but e, hi.entry, hi.holding, hi.unreserved, hi.free⟩

/-- The entry fits the slots again. -/
theorem Parted.settled (h : Parted w s e x sv) (hx : x.AtRest) (hs : x.serving = sv) : Sound w s :=
  ⟨h.stores, h.closed, h.rest.done (.idle (.of h.entry hx (hs ▸ h.holding) h.unreserved h.free))⟩

theorem Parted.mapEntry (h : Parted w s e x sv) (hst : StoresInOrder (s.mapEntry e f))
    (hg : ∀ x, (f x).groupA = x.groupA ∧ (f x).groupB = x.groupB) : Parted w (s.mapEntry e f) e (f x) sv where
  stores := hst
  closed a hw := by rw [State.ant_mapEntry]; exact h.closed a hw
  rest := h.rest.step (workStep_mapEntry s e hg)
  entry := by rw [State.entry_mapEntry_self, h.entry]; rfl
  holding := h.holding.of_slots fun a sl => by rw [State.slot, State.ant_mapEntry]; rfl
  unreserved a sl := by rw [State.slot, State.ant_mapEntry]; exact h.unreserved a sl
  free c y := by rw [State.ctx_mapEntry]; exact h.free c y

theorem Parted.removeRequest (h : Parted w s e x sv) (e' : EntryNo) : Parted w (s.removeRequest e') e x sv :=
  ⟨h.stores.removeRequest e', h.closed, h.rest.step (workStep_removeRequest s e'), h.entry,
    h.holding.of_slots fun _ _ => rfl, h.unreserved, h.free⟩

theorem Parted.queueNotice (h : Parted w s e x sv) (n : Notice) : Parted w (s.queueNotice n) e x sv :=
  ⟨h.stores.queueNotice n, h.closed, h.rest.step .kept, h.entry,
    h.holding.of_slots fun _ _ => rfl, h.unreserved, h.free⟩

theorem Parted.notify (h : Parted w s e x sv) (n : BeltpackId → Notice) : Parted w (s.notify e n) e x sv := by
  unfold State.notify
  rw [h.entry]
  exact h.queueNotice _

/-- The serving slot goes to Releasing. -/
theorem Parted.releaseAt (h : Parted w s e x sv) : Parted w (s.releaseAt sv) e x none := by
  cases sv with
  | none => exact h
  | some p =>
    obtain ⟨a, sl⟩ := p
    have hocc := (h.holding.occupied a sl).mpr rfl
    have hread := State.slot_releaseSlot h.entry (.inr hocc)
    have heq := s.releaseSlot_eq a sl
    refine ⟨h.stores.releaseSlot a sl, h.closed.worked (s.releaseSlot_settled a sl).toWorked,
      h.rest.step (workStep_releaseSlot (by rw [hocc]; rfl)), ?_, ?_, fun b bsl hr => ?_, fun c y => ?_⟩
    · rw [State.releaseAt, heq]; exact h.entry
    · refine h.holding.of (fun b bsl hh => ?_) fun b bsl => ⟨fun ho => ?_, fun h => (nomatch h)⟩
      · rw [Holds, State.releaseAt, hread] at hh
        split at hh
        next hab => obtain ⟨rfl, rfl⟩ := hab; exact .inr (.inl hocc)
        next => exact hh
      · rw [State.releaseAt, hread] at ho
        split at ho
        · cases ho
        next hab =>
          have h2 := (h.holding.occupied b bsl).mp ho
          injection h2 with h2
          injection h2 with h2 h3
          exact absurd ⟨h2, h3⟩ hab
    · rw [State.releaseAt, hread] at hr
      split at hr
      · cases hr
      · exact h.unreserved b bsl hr
    · rw [State.releaseAt, heq]; exact h.free c y

/-- The beltpack goes off air (R15 to R17). -/
theorem Parted.detachWith (h : Parted w s e x none) (r : UnattachedReason) : Sound w (s.detachWith e r) := by
  have hm := h.mapEntry (f := Entry.offAir) (h.stores.mapEntry e (fun _ _ hx => hx.offAir) fun _ => rfl) fun _ => ⟨rfl, rfl⟩
  exact (hm.notify _).settled x.offAir_atRest rfl

/-- An entry that has become Lost (R11, R12). -/
def Entry.lose (x : Entry) (ms : Nat) : Entry :=
  { x with state := .lost, serving := none, settleTimer := none, lostTimer := some ms,
           survey := { x.survey with servingScore := none, lead := none, leadCount := 0 } }

theorem State.loseServing_mapEntry (s : State) (e : EntryNo) (a : AntennaNo) :
    s.loseServing e a = (s.mapEntry e (·.lose s.lostWindow)).notify e fun id => .lost e id (some a) := rfl

theorem EntryInOrder.lose (h : EntryInOrder x) (ms : Nat) : EntryInOrder (x.lose ms) :=
  h.of rfl (by simp [Entry.lose]) ⟨h.candidates, Nat.zero_le _⟩

theorem Entry.lose_timed (x : Entry) (ms : Nat) : Timed (x.lose ms) := ⟨fun h => absurd rfl h, fun _ => rfl, fun _ => rfl⟩

/-- The beltpack becomes Lost. -/
theorem Parted.loseServing (h : Parted w s e x none) (hc : x.context = none) (hw : x.windowExpired = false) (a : AntennaNo) :
    Sound w (s.loseServing e a) := by
  have hm := h.mapEntry (f := (·.lose s.lostWindow)) (h.stores.mapEntry e (fun _ _ hx => hx.lose _) fun _ => rfl) fun _ => ⟨rfl, rfl⟩
  exact (hm.notify _).settled (.of (x.lose_timed _) hc (.inr (.inl rfl)) hw) rfl

/-! ### Off air (R13, R16, R17, R109) -/

/-- Without a transaction only a Served beltpack has a serving slot. -/
theorem Idle.serving_none (h : Idle s e x) (hin : EntryInOrder x) (hst : x.state ≠ .served) : x.serving = none :=
  hin.serving_none hst h.still.2

theorem Sound.offSlot (h : Sound w s) (hi : Idle s e x) : Parted w (s.offSlot x) e x none := by
  have hp := h.parted hi
  have hin := h.stores.entries e x hi.entry
  by_cases hst : x.state = .served
  · obtain ⟨⟨a, sl⟩, hs⟩ := Option.isSome_iff_exists.mp (hin.serving.mpr (.inl hst))
    rw [State.offSlot_served hst hs]
    rw [hs] at hp
    exact hp.releaseAt
  · rw [State.offSlot_not hst]
    rw [hi.serving_none hin hst] at hp
    exact hp

theorem Sound.detach (h : Sound w s) (hi : Idle s e x) : Sound w (s.detach e x) := by
  have hin := h.stores.entries e x hi.entry
  have hoff := (h.offSlot hi).removeRequest e
  have hm := hoff.mapEntry (f := fun x => { x with admission := .barred })
    (hoff.stores.mapEntry e (fun _ _ hy => hy.of_eq rfl rfl rfl rfl rfl rfl) fun _ => rfl) fun _ => ⟨rfl, rfl⟩
  rw [State.detach_eq]
  simp only
  split
  next hst =>
    have hat := hi.atRest
    exact hm.settled ⟨⟨hat.timed.settle, hat.timed.lost, hat.timed.window⟩, hat.context, hat.still, hat.window⟩
      (hi.serving_none hin (by rw [hst]; decide))
  next => exact hm.detachWith _

/-- A Sign-off ends the transaction of a beltpack, whatever its phase (R109). -/
theorem Running.signOff (h : Running none s e x c y) : Parted none (s.signOffTransaction c) e x x.serving := by
  have hg := h.giveUp
  have hun := h.giveUp_unawaited
  refine ⟨hg.stores.putCtx c none, .none, hg.rest.step (workStep_putCtx (fun z hz => ?_) (fun _ h => (nomatch h)) fun _ => hun),
    hg.busy.entry, hg.busy.holding.of_slots fun _ _ => rfl, fun a sl hr => ?_, fun c' y' hy' hye => ?_⟩
  · obtain rfl := Option.some.inj (hg.busy.ctx.symm.trans hz); exact hg.busy.mine
  · have := (hg.busy.reserved a sl hr).2.1
    cases this
  · by_cases hc : c' = c
    · subst hc
      rw [State.signOffTransaction, State.ctx_putCtx_none] at hy'; cases hy'
    · exact hc (hg.busy.only c' y' ((State.ctx_putCtx_ne _ _ (Ne.symm hc)).symm.trans hy') hye)

/-- The end of a Sign-off: the serving slot is released, and the beltpack goes off air. -/
theorem Parted.signedOff (h : Parted none s e x x.serving) (hin : EntryInOrder x) (hat : x.state = .unattached → x.AtRest) :
    Sound none (if x.state = .unattached then (s.releaseAt x.serving).removeRequest e
      else ((s.releaseAt x.serving).removeRequest e).detachWith e .signOff) := by
  have hr := h.releaseAt.removeRequest e
  split
  next hst => exact hr.settled (hat hst) (hin.serving_none (by rw [hst]; decide) (by rw [hst]; decide))
  next => exact hr.detachWith _

theorem Sound.takeSignOff (h : Sound none s) (id : BeltpackId) : Sound none (s.takeSignOff id) := by
  unfold State.takeSignOff
  split
  · exact h
  next e _ =>
    split
    · exact h
    next x hx =>
      have hin := h.stores.entries e x hx
      cases hc : x.context with
      | none =>
        have hi := h.idle hx hc
        exact (h.parted hi).signedOff hin fun _ => hi.atRest
      | some c =>
        obtain ⟨y, hb, ha⟩ := h.busy hx hc
        refine (h.running hb ha).signOff.signedOff hin fun hst => ?_
        have hf := hb.fits
        rw [Context.fits, hst] at hf
        exact hf.elim

/-! ### Timers of entries (R13, R14) -/

/-- A timer of an entry runs out. -/
theorem Sound.mapTimers (h : Sound w s) (hst : StoresInOrder (s.mapEntry e f))
    (hg : ∀ x, (f x).groupA = x.groupA ∧ (f x).groupB = x.groupB)
    (hf : ∀ x, (f x).state = x.state ∧ (f x).serving = x.serving ∧ (f x).context = x.context)
    (ht : ∀ x, s.entry e = some x → Timed x → Timed (f x))
    (hw : ∀ x, s.entry e = some x → x.context = none → x.windowExpired = false → (f x).windowExpired = false) :
    Sound w (s.mapEntry e f) := by
  refine h.change (workStep_mapEntry s e hg) hst (fun a hw => by rw [State.ant_mapEntry]; exact h.closed a hw) fun hb => ?_
  have hslot (a : AntennaNo) (sl : SlotNo) : (s.mapEntry e f).slot a sl = s.slot a sl := by rw [State.slot, State.ant_mapEntry]; rfl
  cases hb with
  | absent hn =>
    rw [State.mapEntry, hn.entry]
    exact .absent hn
  | @idle x hi =>
    obtain ⟨h1, h2, h3⟩ := hf x
    refine .idle (x := f x) (.of ?_ ⟨ht x hi.entry hi.timed, h3.trans hi.context, by rw [h1]; exact hi.still,
      hw x hi.entry hi.context hi.window⟩ (h2 ▸ hi.holding.of_slots hslot) (fun a sl => by rw [hslot]; exact hi.unreserved a sl)
      fun c y => by rw [State.ctx_mapEntry]; exact hi.free c y)
    rw [State.entry_mapEntry_self, hi.entry]; rfl
  | @busy x c y hb ha =>
    obtain ⟨h1, h2, h3⟩ := hf x
    refine .busy (x := f x) (c := c) (y := y) ?_ ⟨by simpa only [hslot] using ha.target, fun a => by
      rw [State.port_mapEntry]; exact ha.orders a⟩
    exact {
      entry := by rw [State.entry_mapEntry_self, hb.entry]; rfl
      timed := ht x hb.entry hb.timed
      context := h3.trans hb.context
      ctx := (State.ctx_mapEntry _ _ _ _).trans hb.ctx
      mine := hb.mine
      only := fun c' y' hy' => hb.only c' y' ((State.ctx_mapEntry _ _ _ _).symm.trans hy')
      unasked := by rw [HasRequest, State.mapEntry_queue]; exact hb.unasked
      fits := Context.fits_of hb.fits rfl rfl .rfl h1 h2
      source := hb.source
      releasing := fun hp b bsl => by rw [hslot]; exact hb.releasing hp b bsl
      holding := h2 ▸ hb.holding.of_slots hslot
      reserved := fun a sl => by rw [hslot]; exact hb.reserved a sl }

theorem Sound.expireSettleTimer (h : Sound none s) (e : EntryNo) : Sound none (s.mapEntry e fun x => { x with settleTimer := none }) := by
  refine h.mapTimers (h.stores.mapMarks e ?_) ?_ ?_ ?_ ?_
  · exact fun _ => ⟨rfl, rfl, rfl, rfl⟩
  · exact fun _ => ⟨rfl, rfl⟩
  · exact fun _ => ⟨rfl, rfl, rfl⟩
  · exact fun _ _ ht => ⟨fun h => absurd rfl h, ht.lost, ht.window⟩
  · exact fun _ _ _ hw => hw

theorem Sound.expireLostWindow (h : Sound none s) (e : EntryNo) : Sound none (s.expireLostWindow e) := by
  unfold State.expireLostWindow
  split
  · exact h
  next x hx =>
    split
    · exact h
    next hl =>
      have hlost (ht : Timed x) : x.state = .lost := ht.lost (by simpa using hl)
      split
      next hc =>
        have only {z : Entry} (hz : s.entry e = some z) : z = x := Option.some.inj (hz.symm.trans hx)
        refine h.mapTimers (h.stores.mapMarks e ?_) ?_ ?_ ?_ ?_
        · exact fun _ => ⟨rfl, rfl, rfl, rfl⟩
        · exact fun _ => ⟨rfl, rfl⟩
        · exact fun _ => ⟨rfl, rfl, rfl⟩
        · intro z hz ht
          obtain rfl := only hz
          exact ⟨ht.settle, fun h => absurd rfl h, fun _ => hlost ht⟩
        · intro z hz hcz
          obtain rfl := only hz
          rw [hcz] at hc; cases hc
      next hc =>
        have hi := h.idle hx (by simpa using hc)
        have hp := h.parted hi
        rw [hi.serving_none (h.stores.entries e x hx) (by rw [hlost hi.timed]; decide)] at hp
        exact (hp.removeRequest e).detachWith _

end Sys2Proof.Machine
end

section
/-! Every step keeps transactions in order, part twelve: Sightings and Seeks. -/

namespace Sys2Proof.Machine

variable {s t u : State} {a b : AntennaNo} {sl bsl : SlotNo} {e e' : EntryNo} {x x' z : Entry} {c c' : ContextNo} {y y' : Context}
  {w : Option AntennaNo} {o : Order}

/-! ### Sightings (R58 to R71) -/

theorem Sound.considerDrain (h : Sound w s) (e : EntryNo) : Sound w (s.considerDrain e) := by
  unfold State.considerDrain
  split
  · exact h
  · split
    · exact h.raiseRequest _ _
    · exact h

theorem Sound.considerFade (h : Sound w s) (e : EntryNo) : Sound w (s.considerFade e) := by
  unfold State.considerFade
  split
  · exact h
  · split
    · exact h.raiseRequest _ _
    · exact h

theorem Sound.considerEvacuation (h : Sound w s) (e : EntryNo) : Sound w (s.considerEvacuation e) := by
  unfold State.considerEvacuation
  split
  · exact h
  · split
    · exact h.raiseEvacuation _
    · exact h

theorem Sound.evaluate (h : Sound w s) (e : EntryNo) : Sound w (s.evaluate e) := by
  unfold State.evaluate
  split
  · exact h
  next x hx =>
    have hv := (h.stores.entries e x hx).survey
    split
    · exact h.mapSurvey e fun _ hv => hv.resetLead
    · simp only
      have hcand := x.survey.countLead_candidates (s.bestCandidate e 0) s.margin
      split
      · exact (h.mapSurvey e fun _ _ => ⟨hcand ▸ hv.1, Nat.zero_le _⟩).raiseRequest e _
      next hlt =>
        have hdwell : s.dwell ≤ 16 := h.stores.dwell_le
        exact h.mapSurvey e fun _ _ => ⟨hcand ▸ hv.1, by omega⟩

theorem Sound.considerServed (h : Sound w s) (e : EntryNo) (here : Bool) : Sound w (s.considerServed e here) := by
  unfold State.considerServed
  simp only
  split
  · exact ((h.considerDrain e).considerFade e).evaluate e
  · exact (h.considerDrain e).evaluate e

theorem Sound.digestSighting (h : Sound w s) (e : EntryNo) (a : AntennaNo) (q : Byte) : Sound w (s.digestSighting e a q) := by
  unfold State.digestSighting
  split
  · exact h
  next x _ =>
    have hm : Sound w (if x.servedAt a then s.mapSurvey e (·.sampleServing q s.smoothing)
        else s.mapSurvey e (·.update a q s.smoothing s.candidateLifetime)) := by
      split
      · exact h.mapSurvey e fun _ hv => hv.sampleServing q _
      · exact h.mapSurvey e fun _ hv => hv.update a q _ _
    split
    · exact h
    · simp only
      split
      · exact hm.considerServed e _
      · exact hm.considerEvacuation e
      all_goals exact hm

theorem Sound.takeSighting (h : Sound w s) (a : AntennaNo) (f : SightingForm) : Sound w (s.takeSighting a f) := by
  cases f with
  | compact slot q =>
    rw [State.takeSighting]
    split
    · exact h.latchStray
    · exact h.digestSighting _ _ _
  | extended id q =>
    rw [State.takeSighting]
    split
    · exact h
    · exact h.digestSighting _ _ _

/-! ### Seeks (R72 to R77, R102) -/

theorem Sound.hearStranger (h : Sound w s) (id : BeltpackId) (a : AntennaNo) (q : Byte) : Sound w (s.hearStranger id a q) := by
  have hst := h.stores.hearStranger id a q
  unfold State.hearStranger at hst ⊢
  split
  · exact h
  next hno =>
    rw [if_neg hno] at hst
    exact h.kept hst

theorem Sound.seekEvacuation (h : Sound w s) (e : EntryNo) (a : AntennaNo) (q : Byte) : Sound w (s.seekEvacuation e a q) :=
  Sound.raiseRequest (h.mapSurvey e fun _ hv => hv.force a q _) _ _

/-- A beltpack that is heard elsewhere becomes Lost, and its slot goes to Releasing (R12, R75). -/
theorem Sound.leftWithoutHandoff (h : Sound none s) (hi : Idle s e x) (hs : x.serving = some (b, sl)) (a : AntennaNo) (q : Byte) :
    Sound none (s.leftWithoutHandoff e b sl a q) := by
  have hp := h.parted hi
  rw [hs] at hp
  exact (hp.releaseAt.loseServing hi.context hi.window b).seekEvacuation e a q

/-- The seek restart: a transaction in its Arrival phase posts a Summon, once (R102). -/
theorem Sound.offerSeek (h : Sound none s) (c : ContextNo) (a : AntennaNo) : Sound none (s.offerSeek c a) := by
  unfold State.offerSeek
  split
  · exact h
  next y hy =>
    split
    next hr =>
      obtain ⟨x, hb, ha⟩ := h.context hy
      have hcond : y.target = some a ∧ y.phase = .arrival ∧ y.restartUsed = false := by
        simpa [Context.restarts, and_assoc] using hr
      obtain ⟨hta, hp, hu⟩ := hcond
      have hearly : y.phase ≠ .release := by rw [hp]; decide
      obtain ⟨a', sl, ht, hs, haw, hres⟩ := ha.target
      obtain rfl := Option.some.inj (hta.symm.trans ht)
      have hnone : y.awaited = none := by
        unfold Context.awaits at haw
        rw [hp] at haw
        exact haw.resolve_right fun hw => by rw [hu] at hw; cases hw.1
      have hwork := h.working hb ha hearly
      have hun : Unposted none s y.entry x c y := ⟨hwork, ⟨a, sl, ht, hs, hres hearly⟩, hwork.unawaited hnone⟩
      have hctx : (State.ctx { s with contexts := s.contexts.set c (some
          { y with restartUsed := true, arrivalTimer := some s.arrivalWindow }) } c) =
            some { y with restartUsed := true, arrivalTimer := some s.arrivalWindow } := get_set_self _ _ _
      rw [State.mapCtx_eq hy, State.postSummon_eq hctx ht hs hb.entry, set_set]
      refine hun.post ⟨rfl, rfl, rfl, rfl, rfl⟩ hearly rfl (fun h => nomatch h) rfl (fun h => nomatch h) fun a' ha' => ?_
      obtain rfl := Option.some.inj (hta.symm.trans ha')
      unfold Context.awaits
      simp only [hp]
      exact .inr ⟨trivial, trivial⟩
    next => exact h

theorem Sound.seekEntry (h : Sound none s) (hx : s.entry e = some x) (a : AntennaNo) (q : Byte) : Sound none (s.seekEntry e x a q) := by
  unfold State.seekEntry
  split
  · exact (h.offerSeek _ a).digestSighting e a q
  · exact h.raiseRequest _ _
  · exact h.seekEvacuation e a q
  next b sl hc _ hs =>
    split
    · exact h.digestSighting e a q
    · exact h.leftWithoutHandoff (h.idle hx hc) hs a q
  · exact h.digestSighting e a q

theorem Sound.takeSeek (h : Sound none s) (a : AntennaNo) (id : BeltpackId) (q : Byte) : Sound none (s.takeSeek a id q) := by
  unfold State.takeSeek
  split
  · exact h.latchStray
  · split
    · exact h.hearStranger id a q
    next e _ =>
      split
      · exact h
      next x hx =>
        split
        · exact h
        · exact h.seekEntry hx a q

theorem Sound.taken_report (h : Sound none s) (r : Report) (a : AntennaNo) : Sound none (r.taken a s) := by
  cases r with
  | sighting f => exact h.takeSighting a f
  | seek id q => exact h.takeSeek a id q
  | arrival id slot => exact h.takeArrival a id slot
  | signOff id => exact h.takeSignOff id

theorem Sound.takeReport (h : Sound none s) (a : AntennaNo) (r : Report) : Sound none (s.takeReport a r) := by
  by_cases hl : (s.ant a).link = .absent
  · rw [State.takeReport_absent hl]; exact h
  · rw [State.takeReport_delivered hl]; exact (h.taken_report r a).settle

end Sys2Proof.Machine
end

section
/-! Every step keeps transactions in order, part thirteen: the conversion of a Move that has lost its source (R128). -/

namespace Sys2Proof.Machine

variable {s t u : State} {a b : AntennaNo} {sl bsl : SlotNo} {e e' : EntryNo} {x x' z : Entry} {c c' : ContextNo} {y y' : Context}
  {w : Option AntennaNo} {o : Order} {f : Entry → Entry} {late : Option ContextNo} {found : ConditionSet}

/-! ### A Move whose source slot is gone -/

/-- A Move before its Arrival has lost its source slot at an antenna that is swept. -/
structure Bereft (w : Option AntennaNo) (s : State) (e : EntryNo) (x : Entry) (c : ContextNo) (y : Context) : Prop where
  stores : StoresInOrder s
  closed : SweptClosed w s
  rest : AgreeBut (some e) w s
  entry : s.entry e = some x
  timed : Timed x
  moving : x.state = .moving
  context : x.context = some c
  ctx : s.ctx c = some y
  mine : y.entry = e
  only : ∀ c' y', s.ctx c' = some y' → y'.entry = e → c' = c
  unasked : ¬ HasRequest s e
  early : y.phase ≠ .release
  holding : Holding s e none
  reserved : ∀ a sl, s.slot a sl = .reserved e → y.target = some a ∧ y.targetSlot = some sl
  aims : ∃ b bsl, y.target = some b ∧ y.targetSlot = some bsl ∧ s.slot b bsl = .reserved e ∧ y.awaits b ∧ w ≠ some b
  orders : ∀ p, (s.port p).awaitedBy c = if w = some p then [] else y.expects p

theorem Bereft.marked (h : Bereft w s e x c y) (hk : BeltpackKept e f s t) (hstep : WorkStep w e none s t)
    (hst : StoresInOrder t) (hw : Worked s t) (hq : t.queue = s.queue) : Bereft w t e (f x) c y where
  stores := hst
  closed := h.closed.worked hw
  rest := h.rest.step hstep
  entry := by rw [hk.entry, h.entry]; rfl
  timed := h.timed.alike (hk.alike x)
  moving := (hk.alike x).state.trans h.moving
  context := (hk.alike x).context.trans h.context
  ctx := (hk.contexts c).trans h.ctx
  mine := h.mine
  only c' y' := by rw [hk.contexts]; exact h.only c' y'
  unasked := by rw [HasRequest, hq]; exact h.unasked
  early := h.early
  holding := h.holding.of_slots hk.slots
  reserved a sl := by rw [hk.slots]; exact h.reserved a sl
  aims := by simpa only [hk.slots] using h.aims
  orders p := (hk.orders p c).trans (h.orders p)

theorem Bereft.mapLink (h : Bereft w s e x c y) {g : HostLink → HostLink} (hw : Worked s (s.mapLink g)) :
    Bereft w (s.mapLink g) e x c y :=
  h.marked (f := id) ⟨Option.map_id_fun ▸ rfl, fun _ => .refl _, fun _ => rfl, fun _ _ => rfl, fun _ _ => rfl, .inl⟩ .kept
    (h.stores.mapLink g) hw rfl

theorem Bereft.recordConditions (h : Bereft w s e x c y) (found : ConditionSet) :
    Bereft w (s.recordConditions e found) e (x.marked found) c y := by
  have hm : Bereft w (s.mapEntry e (Entry.marked · found)) e (x.marked found) c y := by
    refine h.marked (beltpackKept_mapEntry s e ?_) (workStep_mapEntry s e ?_) (h.stores.mapMarks e ?_) (s.mapEntry_settled e ?_).toWorked
      (State.mapEntry_queue _ _ _)
    · exact fun _ => ⟨rfl, rfl, rfl, rfl, rfl, rfl⟩
    · exact fun _ => ⟨rfl, rfl⟩
    · exact fun _ => ⟨rfl, rfl, rfl, rfl⟩
    · exact fun _ => rfl
  exact hm.mapLink (State.mapLink_settled _).toWorked

theorem Bereft.reportForced (h : Bereft w s e x c y) (y' : Context) (k : Condition) (d : Decision) :
    Bereft w (s.reportForced y' k d) e x c y := by
  unfold State.reportForced
  split
  · exact h
  · split
    · exact h.mapLink (State.queueNotice_settled s _).toWorked
    · exact h

/-! ### The conversion -/

/-- The context of a sourceless Summon. -/
def Context.converted (y : Context) : Context := { y with kind := .summon, source := none }

/-- The entry of a beltpack that is served nowhere and attaches again. -/
def Entry.converted (x : Entry) : Entry :=
  { x with state := .attaching, serving := none, survey := { x.survey with servingScore := none } }

/-- The state after the conversion itself, before the Cue is replaced. -/
def State.sourceless (s : State) (c : ContextNo) (e : EntryNo) : State := (s.mapCtx c Context.converted).mapEntry e Entry.converted

theorem State.convert_sourceless (s : State) (c : ContextNo) (y : Context) : s.convert c y =
    if y.phase = .cue then (((s.sourceless c y.entry).stopAwaiting c).mapCtx c fun y => { y with phase := .summon }).postSummon c
    else s.sourceless c y.entry := rfl

section
variable (h : Bereft w s e x c y)
include h

theorem Bereft.sourceless_step : WorkStep w e (some c) s (s.sourceless c e) := by
  have h1 := workStep_mapCtx (w := w) h.ctx h.mine (f := Context.converted) rfl
  refine h1.trans ((workStep_mapEntry (f := Entry.converted) _ e fun _ => ⟨rfl, rfl⟩).owning (y := y.converted) ?_ h.mine)
  rw [State.mapCtx_eq h.ctx]; exact get_set_self _ _ _

theorem Bereft.sourceless_eq : s.sourceless c e =
    { s with contexts := s.contexts.set c (some y.converted), roster := s.roster.set e (some x.converted) } := by
  rw [State.sourceless, State.mapCtx_eq h.ctx]
  exact State.mapEntry_eq (s := { s with contexts := s.contexts.set c (some y.converted) }) h.entry _

theorem Bereft.sourceless : Running w (s.sourceless c e) e x.converted c y.converted := by
  have heq := h.sourceless_eq
  have hctx (c' : ContextNo) : (s.sourceless c e).ctx c' = if c = c' then some y.converted else s.ctx c' := by
    rw [heq, State.ctx_mk]
    split
    next hcc => subst hcc; exact get_set_self _ _ _
    next hcc => exact get_set_ne _ _ hcc
  refine ⟨(h.stores.mapCtx c _).mapEntry e (fun z _ hz => hz.of rfl (by simp [Entry.converted]) hz.survey) fun _ => rfl, ?_,
    h.rest.step h.sourceless_step, ?_, fun p hne => ?_⟩
  · rw [heq]; exact h.closed
  · exact {
      entry := by rw [heq]; exact get_set_self _ _ _
      timed := by
        obtain ⟨hsettle, hlost, hwindow⟩ := h.timed
        refine ⟨fun hs => ?_, fun hl => ?_, fun hw => ?_⟩
        · have := hsettle hs; rw [h.moving] at this; cases this
        · have := hlost hl; rw [h.moving] at this; cases this
        · have := hwindow hw; rw [h.moving] at this; cases this
      context := h.context
      ctx := (hctx c).trans (if_pos rfl)
      mine := h.mine
      only := fun c' y' hy' hye => by
        rw [hctx] at hy'
        split at hy'
        next hcc => exact hcc.symm
        next => exact h.only c' y' hy' hye
      unasked := by rw [HasRequest, heq]; exact h.unasked
      fits := ⟨fun hk => (nomatch hk), h.early⟩
      source := ⟨fun hs => (nomatch hs), fun hk => (nomatch hk)⟩
      releasing := fun hp => absurd hp h.early
      holding := h.holding.of_slots fun a sl => by rw [heq]; rfl
      reserved := fun a sl hr => by
        rw [heq] at hr
        exact ⟨(h.reserved a sl hr).1, (h.reserved a sl hr).2, h.early⟩ }
  · rw [heq] at hne
    have ho := h.orders p
    have hne' : (s.port p).awaitedBy c ≠ [] := hne
    rw [ho] at hne'
    split at hne'
    · exact absurd rfl hne'
    · unfold Context.expects at hne'
      split at hne'
      · exact absurd rfl hne'
      next v hv =>
        split at hne'
        next hp => exact ⟨v, hv, hp.1⟩
        next => exact absurd rfl hne'

end

theorem Running.sound (h : Running w s e x c y) (ha : Aimed w s e c y) : Sound w s :=
  ⟨h.stores, h.closed, h.rest.done (.busy h.busy ha)⟩

/-- The Cue is left, and a Summon is posted to the target (R128). -/
theorem Running.summonAgain (h : Running w s e x c y) (hp : y.phase = .cue) (ht : y.target = some b) (hs : y.targetSlot = some bsl)
    (hr : s.slot b bsl = .reserved e) (hwb : w ≠ some b) :
    Sound w (((s.stopAwaiting c).mapCtx c fun y => { y with phase := .summon }).postSummon c) := by
  obtain rfl := h.busy.mine
  have hun := unawaited_stopAwaiting h.busy.ctx h.posted
  have hstep := workStep_stopAwaiting (w := w) h.busy.ctx rfl
  have hst := h.stores.stopAwaiting c
  have heq := State.stopAwaiting_eq h.busy.ctx
  have hclosed := h.closed.worked (s.stopAwaiting_settled c).toWorked
  have hbusy : Busy (s.stopAwaiting c) y.entry x c { y with awaited := none } :=
    h.busy.change (by rw [heq]; exact h.busy.entry) (by rw [heq]; exact get_set_self _ _ _)
      (fun c' hc => by rw [heq]; exact get_set_ne _ _ (Ne.symm hc)) (fun p psl => by rw [heq]; rfl)
      (by rw [HasRequest, heq]; exact id) (.refl x) rfl rfl rfl .rfl fun p psl hres =>
        ⟨(h.busy.reserved p psl hres).1, (h.busy.reserved p psl hres).2.1⟩
  have hslot : (s.stopAwaiting c).slot b bsl = .reserved y.entry := by rw [heq]; exact hr
  have hrest := h.rest.step hstep
  generalize s.stopAwaiting c = v at *
  have hunp : Unposted w v y.entry x c { y with awaited := none } :=
    ⟨⟨⟨hst, hclosed, hrest, hbusy, fun p hne => absurd (hun p) hne⟩, by rw [hp]; decide⟩, ⟨b, bsl, ht, hs, hslot⟩, hun⟩
  have hctx : (State.ctx { v with contexts := v.contexts.set c (some { y with awaited := none, phase := .summon }) } c) =
      some { y with awaited := none, phase := .summon } := get_set_self _ _ _
  rw [State.mapCtx_eq hbusy.ctx, State.postSummon_eq hctx ht hs hbusy.entry, set_set]
  refine hunp.post ⟨rfl, rfl, rfl, rfl, rfl⟩ (fun h => nomatch h) rfl (fun h => nomatch h) rfl hwb fun a' ha' => ?_
  obtain rfl := Option.some.inj (ht.symm.trans ha')
  rfl

/-- A Move that has lost its source goes on as a Summon. -/
theorem Bereft.convert (h : Bereft w s e x c y) : Sound w (s.convert c y) := by
  have hrun := h.sourceless
  have heq := h.sourceless_eq
  obtain ⟨b, bsl, ht, hs, hr, haw, hwb⟩ := h.aims
  rw [State.convert_sourceless, h.mine]
  have hslot : (s.sourceless c e).slot b bsl = .reserved e := by rw [heq]; exact hr
  split
  next hp => exact hrun.summonAgain hp ht hs hslot hwb
  next hp =>
    refine hrun.sound ⟨⟨b, bsl, ht, hs, ?_, fun _ => hslot⟩, fun p => ?_⟩
    · have hearly := h.early
      have hph : y.converted.phase = y.phase := rfl
      have hv : y.converted.awaited = y.awaited := rfl
      have hu : y.converted.restartUsed = y.restartUsed := rfl
      unfold Context.awaits at haw ⊢
      rw [hph, hv, hu]
      cases hphase : y.phase with
      | cue => exact absurd hphase hp
      | release => exact absurd hphase hearly
      | reserve | summon | arrival => rw [hphase] at haw; exact haw
    · rw [heq]; exact h.orders p

/-- The disposal of the loss of a source converts (R122, R128). -/
theorem Bereft.dispose (h : Bereft w s e x c y) (hk : reportedCondition found = some .srcLost) : Sound w (s.dispose c found) := by
  obtain rfl := h.mine
  have hd : (s.recordConditions y.entry found).decideDisposal y .srcLost = .convert :=
    (State.decideDisposal_fallback (by simp [Condition.forced]) y).trans (if_pos rfl)
  rw [State.dispose_acts h.ctx hk hd]
  exact ((h.recordConditions found).reportForced y .srcLost .convert).convert

end Sys2Proof.Machine
end

section
/-! Every step keeps transactions in order, part fourteen: the closing sweep (R134 to R139). -/

namespace Sys2Proof.Machine

variable {s t u : State} {a b : AntennaNo} {sl bsl : SlotNo} {e e' : EntryNo} {x x' z : Entry} {c c' : ContextNo} {y y' : Context}
  {w : Option AntennaNo} {o : Order} {f : Antenna → Antenna} {late : Option ContextNo} {found : ConditionSet}

/-! ### One slot of the sweep -/

theorem reportedCondition_srcLost_late (late : Option ContextNo) (c : ContextNo) :
    reportedCondition (Condition.srcLost.bit ||| lateSet late c) = some .srcLost := by
  rw [lateSet_joined]; split <;> decide

theorem reportedCondition_tgtLost_late (late : Option ContextNo) (c : ContextNo) :
    reportedCondition (Condition.tgtLost.bit ||| lateSet late c) = some .tgtLost := by
  rw [lateSet_joined]; split <;> decide

theorem Freed.parted (hf : Freed w a sl e s t) (h : Sound w s) (hi : Idle s e x) (hs : s.slot a sl = .occupied e) :
    Parted w t e x none :=
  ⟨hf.stores, hf.closed, (h.agree.but e).step hf.step, (hf.entry e).trans hi.entry, hf.holding_none hi.holding hs,
    fun _ _ hr => hi.unreserved _ _ (hf.reserved hr), hf.free hi.free⟩

/-- A beltpack that has arrived loses its serving slot: its transaction still releases the source. -/
theorem Freed.lose_arrived (hf : Freed w a sl e s t) (h : Sound w s) (hb : Busy s e x c y) (ha : Aimed w s e c y)
    (hs : s.slot a sl = .occupied e) (hp : y.phase = .release) (a' : AntennaNo) : Sound w (t.loseServing e a') := by
  have hin := h.stores.entries e x hb.entry
  have hst : x.state = .served := (hb.arrived hp).resolve_right fun hl => by
    have hsv := (hb.holding.occupied a sl).mp hs
    rw [hin.serving_none (by rw [hl]; decide) (by rw [hl]; decide)] at hsv
    cases hsv
  have hkind : y.kind = .move := by
    have hfit := hb.fits
    rw [Context.fits, hst] at hfit
    exact hfit.1
  have hte : t.entry e = some x := (hf.entry e).trans hb.entry
  have hstep : WorkStep w e none t (t.mapEntry e (·.lose t.lostWindow)) := workStep_mapEntry t e fun _ => ⟨rfl, rfl⟩
  have hstores : StoresInOrder (t.mapEntry e (·.lose t.lostWindow)) := hf.stores.mapEntry e (fun _ _ hx => hx.lose _) fun _ => rfl
  have heq := State.mapEntry_eq hte (·.lose t.lostWindow)
  have hte' : (t.mapEntry e (·.lose t.lostWindow)).entry e = some (x.lose t.lostWindow) := by
    rw [State.entry_mapEntry_self, hte]; rfl
  rw [State.loseServing_mapEntry, State.notify, hte']
  refine Sound.queueNotice ⟨hstores, fun a hw => by rw [State.ant_mapEntry]; exact hf.closed a hw,
    (((h.agree.but e).step hf.step).step hstep).done (.busy (x := x.lose t.lostWindow) (c := c) (y := y) ?_ ?_)⟩ _
  · rw [heq]
    exact {
      entry := get_set_self _ _ _
      timed := x.lose_timed _
      context := hb.context
      ctx := (hf.ctx c).trans hb.ctx
      mine := hb.mine
      only := fun c' y' hy' => hb.only c' y' ((hf.ctx c').symm.trans hy')
      unasked := by rw [HasRequest]; simp only; rw [hf.queue]; exact hb.unasked
      fits := .inr ⟨hkind, hp⟩
      source := hb.source
      releasing := fun hp' b bsl hsrc => by
        have hrel := hb.releasing hp' b bsl hsrc
        refine ((hf.slot b bsl).trans (if_neg ?_)).trans hrel
        rintro ⟨rfl, rfl⟩
        rw [hs] at hrel; cases hrel
      holding := (hf.holding_none hb.holding hs).of_slots fun _ _ => rfl
      reserved := fun b bsl hr => hb.reserved b bsl (hf.reserved hr) }
  · have haim := hf.aimed ha fun hne => absurd hp hne
    rw [heq]
    exact ⟨haim.target, haim.orders⟩

/-- A Move loses the slot that serves it. -/
theorem Freed.bereft (hf : Freed (some a) a sl e s t) (h : Sound (some a) s) (hb : Busy s e x c y) (ha : Aimed (some a) s e c y)
    (hs : s.slot a sl = .occupied e) (hp : y.phase ≠ .release) : Bereft (some a) t e x c y := by
  have hin := h.stores.entries e x hb.entry
  have hsv : x.serving.isSome = true := by rw [(hb.holding.occupied a sl).mp hs]; rfl
  have hst : x.state = .moving := (hin.serving.mp hsv).resolve_left fun hst => by
    have hfit := hb.fits
    rw [Context.fits, hst] at hfit
    exact hp hfit.2
  obtain ⟨b, bsl, ht, hts, haw, hr⟩ := ha.target
  have hba : some a ≠ some b := fun hab => by
    obtain rfl := Option.some.inj hab
    obtain rfl := hb.holding.once a sl bsl (.inr (.inl hs)) (.inl (hr hp))
    have := hr hp
    rw [hs] at this; cases this
  exact {
    stores := hf.stores
    closed := hf.closed
    rest := (h.agree.but e).step hf.step
    entry := (hf.entry e).trans hb.entry
    timed := hb.timed
    moving := hst
    context := hb.context
    ctx := (hf.ctx c).trans hb.ctx
    mine := hb.mine
    only := fun c' y' hy' => hb.only c' y' ((hf.ctx c').symm.trans hy')
    unasked := by rw [HasRequest, hf.queue]; exact hb.unasked
    early := hp
    holding := hf.holding_none hb.holding hs
    reserved := fun p psl hres => ⟨(hb.reserved p psl (hf.reserved hres)).1, (hb.reserved p psl (hf.reserved hres)).2.1⟩
    aims := ⟨b, bsl, ht, hts, (hf.slot b bsl).trans ((if_neg fun hab => hba (congrArg some hab.1)).trans (hr hp)), haw, hba⟩
    orders := hf.orders ha }

/-- A transaction loses its target slot. -/
theorem Freed.working (hf : Freed w a sl e s t) (h : Sound w s) (hb : Busy s e x c y) (ha : Aimed w s e c y)
    (hs : s.slot a sl = .reserved e) : Working w t e x c y := by
  have hearly := (hb.reserved a sl hs).2.2
  refine ⟨⟨hf.stores, hf.closed, (h.agree.but e).step hf.step, hf.busy hb (by rw [hs]; exact fun h => nomatch h)
    fun hh => hearly hh.1, fun p hne => ?_⟩, hearly⟩
  rw [hf.orders ha] at hne
  split at hne
  · exact absurd rfl hne
  · unfold Context.expects at hne
    split at hne
    · exact absurd rfl hne
    next v hv =>
      split at hne
      next hp => exact ⟨v, hv, hp.1⟩
      next => exact absurd rfl hne

theorem Sound.sweepOccupied (h : Sound (some a) s) (hs : s.slot a sl = .occupied e) (late : Option ContextNo) :
    Sound (some a) ((s.setSlot a sl .free).sweepOccupied a late e) := by
  have hf : Freed (some a) a sl e s (s.setSlot a sl .free) := h.swept (by rw [hs]; rfl)
  cases h.beltpack e with
  | absent hn => exact absurd (.inr (.inl hs)) (hn.slots a sl)
  | idle hi =>
    rw [State.sweepOccupied_alone ((hf.entry e).trans hi.entry) hi.context]
    exact ((hf.parted h hi hs).loseServing hi.context hi.window a).raiseEvacuation e
  | @busy x c y hb ha =>
    rw [State.sweepOccupied_busy ((hf.entry e).trans hb.entry) hb.context ((hf.ctx c).trans hb.ctx)]
    split
    next hp => exact hf.lose_arrived h hb ha hs hp a
    next hp => exact (hf.bereft h hb ha hs hp).dispose (reportedCondition_srcLost_late late c)

theorem Sound.sweepReserved (h : Sound (some a) s) (hs : s.slot a sl = .reserved e) (late : Option ContextNo) :
    Sound (some a) ((s.setSlot a sl .free).sweepReserved late e) := by
  have hf : Freed (some a) a sl e s (s.setSlot a sl .free) := h.swept (by rw [hs]; rfl)
  cases h.beltpack e with
  | absent hn => exact absurd (.inl hs) (hn.slots a sl)
  | idle hi => exact absurd hs (hi.unreserved a sl)
  | @busy x c y hb ha =>
    have hw := hf.working h hb ha hs
    rw [State.sweepReserved, hw.busy.entry, Option.bind_some, hb.context]
    exact hw.dispose (reportedCondition_tgtLost_late late c) (by decide)

theorem Sound.sweepSlot (h : Sound (some a) s) (late : Option ContextNo) (sl : SlotNo) : Sound (some a) (State.sweepSlot a late s sl) := by
  unfold State.sweepSlot
  split
  · exact h
  next e hs => exact h.sweepOccupied hs late
  next e hs => exact h.sweepReserved hs late
  next e hs => exact h.afterRelease hs (h.swept (by rw [hs]; rfl))

theorem Sound.sweepSlots (late : Option ContextNo) (sls : List SlotNo) : ∀ s : State, Sound (some a) s →
    Sound (some a) (sls.foldl (State.sweepSlot a late) s) := by
  induction sls with
  | nil => exact fun _ h => h
  | cons sl sls ih => exact fun s h => ih _ (h.sweepSlot late sl)

/-! ### The sweep's beginning and its end -/

/-- With its port cleared an antenna that is not open may be swept. -/
theorem Sound.clearPort (h : Sound none s) (ho : (s.ant a).open = false) : Sound (some a) (s.mapPort a Port.clear) := by
  have hawait (b : AntennaNo) (c : ContextNo) : ((s.mapPort a Port.clear).port b).awaitedBy c =
      if some a = some b then [] else (s.port b).awaitedBy c := by
    rw [State.awaitedBy_mapPort]
    by_cases hab : a = b
    · rw [if_pos hab, if_pos (congrArg some hab)]; exact Port.awaitedBy_clear _ _
    · rw [if_neg hab, if_neg fun h => hab (Option.some.inj h)]
  have hst : StoresInOrder (s.mapPort a Port.clear) :=
    h.stores.mapPort a (fun _ => ⟨Nat.zero_le _, fun hw => absurd rfl hw⟩) fun _ hs => ⟨rfl, hs.2⟩
  refine ⟨hst, fun b hb => by obtain rfl := Option.some.inj hb; exact ho, fun e _ => ?_, fun b g _ => h.agree.lanes b g nofun,
    fun c hc b => ?_, h.agree.one⟩
  · cases h.beltpack e with
    | absent hn => exact .absent ⟨hn.entry, hn.free, hn.slots, hn.unasked⟩
    | idle hi => exact .idle (.of hi.entry hi.atRest (hi.holding.of_slots fun _ _ => rfl) hi.unreserved hi.free)
    | @busy x c y hb ha =>
      refine .busy (hb.kept rfl (fun _ => rfl) (fun _ _ => rfl) id) ⟨ha.target, fun b => ?_⟩
      have hexp : (s.port b).awaitedBy c = y.expects b := (ha.orders b).trans (if_neg fun h => nomatch h)
      rw [hawait, hexp]
  · rw [hawait, h.agree.freed c hc b, ite_self]

/-- An order that a transaction awaits is one of an antenna where its beltpack holds a slot. -/
theorem Busy.expects_held (h : Busy s e x c y) (ha : Aimed w s e c y) (hf : AllFree s a) : y.expects a = [] := by
  unfold Context.expects
  split
  · rfl
  next v hv =>
    split
    next hva =>
      exfalso
      obtain ⟨hport, hrel⟩ := hva
      obtain ⟨b, bsl, ht, hts, haw, hr⟩ := ha.target
      have hat {k : OrderType} {p : AntennaNo} (hv' : y.awaited = some ⟨k, p⟩) : p = a ∧ k ≠ .release := by
        obtain rfl := Option.some.inj (hv.symm.trans hv')
        exact ⟨hport, hrel⟩
      have htarget (hp : y.phase ≠ .release) (hba : b = a) : False := by
        have := hr hp
        rw [hba, hf bsl] at this; cases this
      unfold Context.awaits at haw
      cases hp : y.phase with
      | reserve => rw [hp] at haw; exact htarget (by rw [hp]; decide) (hat haw).1
      | summon => rw [hp] at haw; exact htarget (by rw [hp]; decide) (hat haw).1
      | arrival =>
        rw [hp] at haw
        rcases haw with haw | ⟨-, haw⟩
        · rw [hv] at haw; cases haw
        · exact htarget (by rw [hp]; decide) (hat haw).1
      | cue =>
        rw [hp] at haw
        obtain ⟨p, psl, hsrc, haw⟩ := haw
        obtain ⟨rfl, -⟩ := hat haw
        have hk : y.kind = .move := h.source.mp (by rw [hsrc]; rfl)
        have hsv := (h.source_serving (by rw [hp]; decide) hk).1
        have hocc := (h.holding.occupied p psl).mpr (hsv.symm.trans hsrc)
        rw [hf psl] at hocc; cases hocc
      | release =>
        rw [hp] at haw
        obtain ⟨p, psl, -, haw⟩ := haw
        exact (hat haw).2 rfl
    next => rfl

theorem countOf_none {n : Nat} {p : Fin n → Bool} (h : ∀ i, p i = false) : countOf p = 0 := by
  rw [countOf, List.filter_eq_nil_iff.mpr fun i _ => by rw [h i]; exact Bool.false_ne_true]; rfl

/-- With all slots Free and the lanes emptied the sweep is over. -/
theorem Sound.emptied (h : Sound (some a) s) (hf : AllFree s a) : Sound none (s.mapLanes a fun _ => Vector.replicate 4 none) := by
  have hslot (b : AntennaNo) (bsl : SlotNo) : (s.mapLanes a fun _ => Vector.replicate 4 none).slot b bsl = s.slot b bsl := by
    rw [State.mapLanes, State.slot]
    by_cases hab : a = b
    · subst hab; rw [State.ant_mapAnt_self]; rfl
    · rw [State.ant_mapAnt_ne _ _ hab]; rfl
  have hlanes (b : AntennaNo) (hab : a ≠ b) : ((s.mapLanes a fun _ => Vector.replicate 4 none).ant b).lanes = (s.ant b).lanes := by
    rw [State.mapLanes, State.ant_mapAnt_ne _ _ hab]
  have hst : StoresInOrder (s.mapLanes a fun _ => Vector.replicate 4 none) := h.stores.mapLanes a fun _ => LanesApart.empty
  refine ⟨hst, .none, fun e _ => ?_, fun b g _ => ?_, h.agree.freed, h.agree.one⟩
  · cases h.beltpack e with
    | absent hn => exact .absent ⟨hn.entry, hn.free, fun b bsl => by rw [Holds, hslot]; exact hn.slots b bsl, hn.unasked⟩
    | idle hi =>
      exact .idle (.of hi.entry hi.atRest (hi.holding.of_slots hslot) (fun b bsl => by rw [hslot]; exact hi.unreserved b bsl) hi.free)
    | busy hb ha =>
      refine .busy (hb.kept rfl (fun _ => rfl) hslot id) ⟨by simpa only [hslot] using ha.target, fun b => ?_⟩
      have ho := ha.orders b
      refine ho.trans (Eq.trans ?_ (if_neg fun h => nomatch h).symm)
      split
      next hab =>
        obtain rfl := Option.some.inj hab
        exact (hb.expects_held ha hf).symm
      next => rfl
  · have hlists : State.slotLists (s.mapLanes a fun _ => Vector.replicate 4 none) b g = s.slotLists b g := by
      funext bsl
      rw [State.slotLists_eq, State.slotLists_eq, hslot]; rfl
    rw [hlists]
    by_cases hab : a = b
    · subst hab
      rw [State.mapLanes, State.ant_mapAnt_self, countOf_none fun bsl => State.slotLists_free (hf bsl) g]
      exact laneUsers_empty g
    · rw [hlanes b hab]
      exact h.agree.lanes b g fun h => hab (Option.some.inj h)

theorem Sound.closingSweep (h : Sound none s) (hc : (s.ant a).carrying = false) (late : Option ContextNo) :
    Sound none (s.closingSweep a late) := by
  have ho : (s.ant a).open = false := by simp [Antenna.open, hc]
  have hswept : Sound (some a) (s.sweptSlots a late) := by
    unfold State.sweptSlots
    exact Sound.sweepSlots late _ _ (h.clearPort ho)
  rw [State.closingSweep_eq]
  exact ((hswept.emptied (State.sweptSlots_allFree ho late)).drainTest a _).beginExchange a

/-! ### Records that may end carrying (R26) -/

/-- What an event may do to an antenna record. -/
structure RecordChange (s : State) (a : AntennaNo) (f : Antenna → Antenna) : Prop where
  slots : ∀ r, (f r).slots = r.slots ∧ (f r).lanes = r.lanes
  inOrder : AntennaInOrder (s.ant a) → AntennaInOrder (f (s.ant a))
  stopped : s.running = false → (f (s.ant a)).link = .absent

theorem Sound.changeAndSweep (h : Sound none s) (hf : RecordChange s a f) (late : Option ContextNo) :
    Sound none (s.changeAndSweep a late f) := by
  have hch := h.changeAntenna a hf.slots hf.inOrder hf.stopped
  unfold State.changeAndSweep
  simp only
  split
  next hc => exact hch.closingSweep (by simpa using (Bool.and_eq_true_iff.mp hc).2) late
  next => exact hch

theorem State.setChangeFlag_mapPort (s : State) (a : AntennaNo) (g : Port → Port) :
    (s.mapPort a g).setChangeFlag a = (s.setChangeFlag a).mapPort a g := by
  unfold State.setChangeFlag
  simp only
  rw [apply_ite (State.mapPort · a g)]
  rfl

/-- A record and the port are apart. -/
theorem State.changeAntenna_mapPort (s : State) (a : AntennaNo) (f : Antenna → Antenna) (g : Port → Port) :
    (s.mapPort a g).changeAntenna a f = (s.changeAntenna a f).mapPort a g := by
  unfold State.changeAntenna
  simp only
  rw [apply_ite (State.mapPort · a g), ← State.setChangeFlag_mapPort]
  rfl

/-- A sweep clears its port, whatever was in flight there. -/
theorem State.closingSweep_endExchange (s : State) (a : AntennaNo) (late : Option ContextNo) :
    (s.endExchange a).closingSweep a late = s.closingSweep a late := by
  have hclear : (s.endExchange a).mapPort a Port.clear = s.mapPort a Port.clear := by
    simp only [State.endExchange, State.mapPort, State.port, set_set, get_set_self]
    rfl
  rw [State.closingSweep, State.closingSweep, hclear]

theorem State.changeAntenna_carrying (s : State) (a : AntennaNo) {f : Antenna → Antenna} (hf : ∀ r, (f r).changed = r.changed) :
    ((s.changeAntenna a f).ant a).carrying = (f (s.ant a)).carrying := by
  rw [State.changeAntenna_eq s a (hf _)]
  simp only [State.ant_mk, get_set_self]
  exact Antenna.flagged_closed

end Sys2Proof.Machine
end

section
/-! Every step keeps transactions in order, part fifteen: replies, timeouts, lines, and every event. -/

namespace Sys2Proof.Machine

variable {s t u : State} {a b : AntennaNo} {sl bsl : SlotNo} {e e' : EntryNo} {x x' z : Entry} {c c' : ContextNo} {y y' : Context}
  {w : Option AntennaNo} {o : Order} {f : Antenna → Antenna} {late : Option ContextNo}

/-! ### Replies and timeouts (R29 to R32, R156, R157) -/

theorem Sound.settledExchange (h : Sound none s) (a : AntennaNo) : Sound none (s.beginExchange a).settle := (h.beginExchange a).settle

theorem Sound.takeOrderReply (h : Sound none s) (a : AntennaNo) (k : Byte) (id : BeltpackId) (slot : Byte) (v : OrderOutcome) :
    Sound none (s.takeOrderReply a k id slot v) := by
  unfold State.takeOrderReply
  split
  · exact h.latchStray
  next o ho =>
    split
    · have hm := h.mapAnt a (f := fun r => { r with orderMisses := 0 })
        (h.stores.mapAnt a (fun ⟨hp, _, hl⟩ => ⟨hp, Nat.zero_le _, hl⟩) fun _ => rfl) fun _ => ⟨rfl, rfl⟩
      exact (hm.giveOutcome (o := o) ho v).settledExchange a
    · exact h.latchStray

theorem Port.orderInFlight_of_probe {p : Port} (h : p.probeInFlight = true) : p.orderInFlight = none := by
  unfold Port.probeInFlight at h
  unfold Port.orderInFlight
  split at h
  next hf => rw [hf]
  next => cases h

theorem Sound.endProbe (h : Sound none s) (hp : (s.port a).probeInFlight = true) : Sound none (s.endExchange a) :=
  h.endExchange a fun o ho => by rw [Port.orderInFlight_of_probe hp] at ho; cases ho

theorem Sound.takeStatus (h : Sound none s) (a : AntennaNo) (mode fault : Byte) : Sound none (s.takeStatus a mode fault) := by
  unfold State.takeStatus
  split
  next l hm hp =>
    have hrun := h.stores.running_of_inFlight (Port.inFlight_of_probe hp)
    refine Sound.settledExchange (Sound.changeAndSweep (h.endProbe hp) ⟨?_, ?_, ?_⟩ none) a
    · exact fun _ => ⟨rfl, rfl⟩
    · exact fun ⟨_, ho, hl⟩ => ⟨Nat.zero_le _, ho, hl⟩
    · exact fun hr => absurd (hrun.symm.trans hr) (by decide)
  · exact h.latchStray

theorem Sound.takeReply (h : Sound none s) (a : AntennaNo) (r : PortReply) : Sound none (s.takeReply a r) := by
  cases r with
  | status mode fault => exact h.takeStatus a mode fault
  | ack k id slot => exact h.takeOrderReply a k id slot .acked
  | refuse k id slot => exact h.takeOrderReply a k id slot .refused

theorem Sound.missProbe (h : Sound none s) (hr : s.running = true) (a : AntennaNo) : Sound none (s.missProbe a) := by
  unfold State.missProbe
  refine Sound.settledExchange (Sound.changeAndSweep h ⟨?_, ?_, ?_⟩ none) a
  · exact fun _ => ⟨rfl, rfl⟩
  · exact fun ⟨_, ho, hl⟩ => ⟨Nat.min_le_left _ _, ho, hl⟩
  · exact fun hr' => absurd (hr.symm.trans hr') (by decide)

theorem StoresInOrder.recordChange_countTimeout (h : StoresInOrder s) (a : AntennaNo) : RecordChange s a Antenna.countTimeout :=
  ⟨fun _ => ⟨rfl, rfl⟩, fun ⟨hp, _, hl⟩ => ⟨hp, Nat.min_le_left _ _, hl⟩, fun hr => (h.stopped hr a).1⟩

theorem Sound.countTimeout (h : Sound none s) (a : AntennaNo) : Sound none (s.changeAndSweep a none Antenna.countTimeout) :=
  h.changeAndSweep (h.stores.recordChange_countTimeout a) none

/-- The timeout that ends an antenna's carrying is disposed of by the sweep (R32). -/
theorem Sound.lateSweep (h : Sound none s) (hc : (s.ant a).timeoutCloses = true) (c : ContextNo) :
    Sound none ((s.endExchange a).changeAndSweep a (some c) Antenna.countTimeout) := by
  have hf := h.stores.recordChange_countTimeout a
  have hcarry : ((s.changeAntenna a Antenna.countTimeout).ant a).carrying = false := by
    rw [State.changeAntenna_carrying s a (f := Antenna.countTimeout) fun _ => rfl]
    simpa using (Bool.and_eq_true_iff.mp hc).2
  have hcomm : (s.endExchange a).changeAntenna a Antenna.countTimeout = (s.changeAntenna a Antenna.countTimeout).endExchange a :=
    State.changeAntenna_mapPort s a _ _
  unfold State.changeAndSweep
  simp only [hcomm]
  split
  next =>
    rw [State.closingSweep_endExchange]
    exact (h.changeAntenna a hf.slots hf.inOrder hf.stopped).closingSweep hcarry (some c)
  next hno =>
    refine absurd ?_ hno
    have hwas : (s.ant a).carrying = true := (Bool.and_eq_true_iff.mp hc).1
    exact Bool.and_eq_true_iff.mpr ⟨hwas, by
      change (!((s.changeAntenna a Antenna.countTimeout).ant a).carrying) = true
      rw [hcarry]; rfl⟩

/-- Any other timeout leaves the antenna carrying or not, as it was. -/
theorem State.countTimeout_open (hc : (s.ant a).timeoutCloses = false) :
    (s.endExchange a).changeAndSweep a none Antenna.countTimeout = (s.changeAntenna a Antenna.countTimeout).endExchange a := by
  have hcomm : (s.endExchange a).changeAntenna a Antenna.countTimeout = (s.changeAntenna a Antenna.countTimeout).endExchange a :=
    State.changeAntenna_mapPort s a _ _
  have hcarry := State.changeAntenna_carrying s a (f := Antenna.countTimeout) fun _ => rfl
  unfold State.changeAndSweep
  simp only [hcomm]
  refine if_neg fun h => ?_
  have hsame : (((s.changeAntenna a Antenna.countTimeout).endExchange a).ant a).carrying = (s.ant a).countTimeout.carrying := hcarry
  rw [hsame] at h
  exact absurd (hc.symm.trans h) (by decide)

theorem State.changeAntenna_port (s : State) (a b : AntennaNo) (f : Antenna → Antenna) : (s.changeAntenna a f).port b = s.port b := by
  unfold State.changeAntenna State.setChangeFlag
  simp only
  split
  · rfl
  · split <;> rfl

theorem Sound.timeOutOrder (h : Sound none s) (ho : (s.port a).orderInFlight = some o) :
    Sound none ((s.endExchange a).timeOutOrder a o) := by
  have hf := h.stores.recordChange_countTimeout a
  unfold State.timeOutOrder
  refine Sound.settledExchange ?_ a
  cases hp : o.poster with
  | slot sl => exact (h.giveOutcome ho .timedOut).countTimeout a
  | nobody =>
    refine (h.endExchange a fun o' ho' c hc => ?_).countTimeout a
    obtain rfl := Option.some.inj (ho.symm.trans ho')
    rw [hp] at hc; cases hc
  | context c =>
    simp only
    split
    next hc => exact h.lateSweep hc c
    next hc =>
      rw [State.countTimeout_open (s := s) (Bool.eq_false_iff.mpr hc)]
      exact (h.changeAntenna a hf.slots hf.inOrder hf.stopped).giveOutcome (by rw [State.changeAntenna_port]; exact ho) .timedOut

/-! ### Lines -/

theorem Sound.setReceiver (h : Sound none s) (a : AntennaNo) (r : TrunkReceiver) :
    Sound none (s.mapPort a fun p => { p with receiver := r }) :=
  h.mapPort a (fun _ => rfl) (h.stores.setReceiver a r)

theorem Sound.fromLine (h : Sound none s) (a : AntennaNo) {f : State → State} (hf : ∀ u, Sound none u → Sound none (f u)) :
    Sound none (s.fromLine a f) := by
  unfold State.fromLine
  split
  · exact hf _ (h.setReceiver a _)
  · exact h

theorem Sound.takeBadFrame (h : Sound none s) (a : AntennaNo) : Sound none (s.takeBadFrame a) := h.fromLine a fun _ hu => hu.mapLink _

theorem Sound.lineReply (h : Sound none s) (a : AntennaNo) (r : PortReply) : Sound none (s.lineReply a r) :=
  h.fromLine a fun _ hu => hu.takeReply a r

theorem Sound.lineReport (h : Sound none s) (a : AntennaNo) (r : Report) : Sound none (s.lineReport a r) :=
  h.fromLine a fun _ hu => hu.takeReport a r

theorem Sound.endReceivedFrame (h : Sound none s) (a : AntennaNo) (type length : Byte) (tail : List Byte) :
    Sound none (s.endReceivedFrame a type length tail) := by
  unfold State.endReceivedFrame
  split
  · exact h.takeBadFrame a
  · split
    · exact h.lineReply a _
    · exact h.lineReport a _
    · exact h.takeBadFrame a

theorem Sound.takeTrunkByte (h : Sound none s) (a : AntennaNo) (b : Byte) : Sound none (s.takeTrunkByte a b) := by
  unfold State.takeTrunkByte
  split
  · exact h
  · split
    · split
      · exact h.setReceiver a _
      · exact h
    · unfold State.takeTrunkFrameByte
      simp only
      split
      · split
        · exact h.takeBadFrame a
        · split
          · exact h.endReceivedFrame a _ _ _
          · exact h.setReceiver a _
      · exact h.setReceiver a _

/-! ### Timers -/

theorem Sound.expireArrivalTimer (h : Sound none s) (c : ContextNo) : Sound none (s.expireArrivalTimer c) := by
  unfold State.expireArrivalTimer
  split
  · exact h
  next y hy =>
    split
    next hc =>
      obtain ⟨x, hb, ha⟩ := h.context hy
      have hp : y.phase = .arrival := by simpa using (Bool.and_eq_true_iff.mp hc).2
      exact ((h.working hb ha (by rw [hp]; decide)).dispose (k := .noArrival) (by decide) (by decide)).settle
    next => exact h

theorem Request.release_entry (r : Request) (e : EntryNo) : (r.release e).entry = r.entry := by
  unfold Request.release; split <;> rfl

theorem Sound.expireNotBefore (h : Sound none s) (e : EntryNo) : Sound none { s with queue := s.queue.map (·.release e) } := by
  have hst : StoresInOrder { s with queue := s.queue.map (·.release e) } :=
    h.stores.setQueue (h.stores.queue.map fun r => r.release_key e) rfl
  have hasks (e' : EntryNo) (hq : HasRequest { s with queue := s.queue.map (·.release e) } e') : HasRequest s e' := by
    obtain ⟨r, hr, hre⟩ := hq
    obtain ⟨r', hr', rfl⟩ := List.mem_map.mp hr
    exact ⟨r', hr', (r'.release_entry e).symm.trans hre⟩
  refine h.setQueue (e := e) rfl hst (workStep_queue rfl (fun e' _ => hasks e') fun ho => ?_) fun hq => .inl (hasks e hq)
  exact List.pairwise_map.mpr (ho.imp fun {r r'} hne => by rwa [r.release_entry, r'.release_entry])

/-! ### The events -/

theorem Sound.wake (h : Sound none s) : Sound none s.wake := h.mapLink _

theorem Sound.timeOut (h : Sound none s) (a : AntennaNo) : Sound none (match (s.port a).orderInFlight with
    | some o => if (s.port a).canTimeOut then (s.endExchange a).timeOutOrder a o else s
    | none => s) := by
  split
  next o ho =>
    split
    · exact h.timeOutOrder ho
    · exact h
  next => exact h

theorem Port.awaitedBy_placeWaiting (p : Port) (c : ContextNo) : p.placeWaiting.awaitedBy c = p.awaitedBy c :=
  Port.awaitedBy_congr p.unanswered_placeWaiting c

theorem Port.awaitedBy_expireProbeTimer (p : Port) (ms : Nat) (c : ContextNo) : (p.expireProbeTimer ms).awaitedBy c = p.awaitedBy c := by
  unfold Port.expireProbeTimer
  split <;> rfl

/-- Every event keeps all beltpacks in agreement. -/
theorem Sound.event {i : Instr} (hi : isEvent i = true) (h : Sound none s.wake) (hx : exec i s = .next t) : Sound none t := by
  have of {u : State} (he : exec i s = .next u) (hu : Sound none u) : Sound none t := by
    rw [he] at hx; injection hx with hx; exact hx ▸ hu
  cases i with
  | badTrunkFrame a => exact of rfl (h.takeBadFrame a)
  | trunkGapExpiry a =>
    refine of rfl ?_
    simp only
    split
    · exact h
    · exact h.takeBadFrame a
  | status a m f => exact of rfl (h.lineReply a _)
  | ack a k id sl => exact of rfl (h.lineReply a _)
  | refuse a k id sl r => exact of rfl (h.lineReply a _)
  | sighting a f => exact of rfl (h.lineReport a _)
  | seek a id q => exact of rfl (h.lineReport a _)
  | arrival a id sl => exact of rfl (h.lineReport a _)
  | signOff a id => exact of rfl (h.lineReport a _)
  | probeTimerExpiry a =>
    have hport : StoresInOrder (s.wake.mapPort a (·.expireProbeTimer s.wake.probeInterval)) := by
      refine h.stores.mapPort a ?_ ?_
      · exact fun hp => hp.expireProbeTimer _
      · exact fun _ hs => by rw [Port.expireProbeTimer_still hs]; exact hs
    exact of rfl ((h.mapPort a (fun c => Port.awaitedBy_expireProbeTimer _ _ c) hport).beginExchange a)
  | probeMiss a =>
    refine of rfl ?_
    simp only
    split
    next hp =>
      rw [Bool.and_eq_true] at hp
      exact (h.endProbe hp.1).missProbe (h.stores.running_of_inFlight (Port.inFlight_of_probe hp.1)) a
    next => exact h
  | orderTimeout a => exact of rfl (h.timeOut a)
  | loopbackReply a =>
    refine of rfl ?_
    simp only
    split
    · exact h.takeReply a _
    · exact h
  | beginExchange a => exact of rfl (h.beginExchange a)
  | waitingPosterPlaced a =>
    have hport : StoresInOrder (s.wake.mapPort a Port.placeWaiting) := by
      refine h.stores.mapPort a ?_ ?_
      · exact fun hp => hp.placeWaiting
      · exact fun _ hs => hs.placeWaiting
    exact of rfl ((h.mapPort a (fun c => Port.awaitedBy_placeWaiting _ c) hport).beginExchange a)
  | arrivalTimerExpiry c => exact of rfl (h.expireArrivalTimer c)
  | lostWindowExpiry e => exact of rfl (h.expireLostWindow e)
  | settleTimerExpiry e => exact of rfl (h.expireSettleTimer e)
  | candidateLifetimeExpiry e a =>
    refine of rfl (Sound.mapSurvey h e ?_)
    intro v hv
    split
    · exact hv.remove a
    · exact hv
  | notBeforeExpiry e => exact of rfl (h.expireNotBefore e).settle
  | dispatch => exact of rfl h.settle
  | trunkRxByte a b => exact of rfl (h.takeTrunkByte a b)
  | _ => cases hi

end Sys2Proof.Machine
end

section
/-! Every step keeps transactions in order, part sixteen: the commands of the Host Link, the trunk and the antennas. -/

namespace Sys2Proof.Machine

variable {s t u : State} {a : AntennaNo} {e : EntryNo} {x : Entry} {body : State → CommandReply}

/-! ### Replies -/

/-- A reply that leaves all beltpacks in agreement. -/
inductive ReplySound : CommandReply → Prop
  | refuse (r : RefusalCode) : ReplySound (.refuse r)
  | leaves {p : List Byte} {t : State} (h : Sound none t) : ReplySound (.answer p t)

/-- A command whose answer leaves all beltpacks in agreement. -/
def BodySound (body : State → CommandReply) : Prop := ∀ s, Sound none s → ReplySound (body s)

theorem Sound.answer (h : Sound none t) (p : List Byte) : ReplySound (.answer p t) := .leaves h

theorem ReplySound.state {p : List Byte} (h : ReplySound (.answer p t)) : Sound none t := by
  cases h with
  | leaves ht => exact ht

/-- A command that changes nothing that the transactions read. -/
theorem BodyInOrder.sound (hb : BodyInOrder body) (hk : ∀ s p t, body s = .answer p t → t.roster = s.roster ∧
    t.contexts = s.contexts ∧ t.antennas = s.antennas ∧ t.ports = s.ports ∧ t.queue = s.queue) : BodySound body := fun s h => by
  cases hx : body s with
  | refuse r => exact .refuse r
  | answer p t =>
    obtain ⟨hr, hc, ha, hp, hq⟩ := hk s p t hx
    exact (h.kept (hb s p t h.stores hx).1 hr hc ha hp hq).answer p

theorem BodySound.withAntenna {k : AntennaNo → State → CommandReply} (h : ∀ a, BodySound (k a)) (b : Byte) :
    BodySound (withAntenna b k) := fun s hs => by
  unfold Sys2Proof.Machine.withAntenna
  split
  · exact .refuse _
  · exact h _ s hs

theorem BodySound.withBeltpack {α : Type} {values : Option α} {k : EntryNo → Entry → α → State → CommandReply}
    (h : ∀ e x v s, Sound none s → s.entry e = some x → values = some v → ReplySound (k e x v s)) (ref : BeltpackRef)
    (held : Bool) : BodySound (withBeltpack ref values held k) := fun s hs => by
  unfold Sys2Proof.Machine.withBeltpack
  split
  · exact .refuse _
  · split
    · exact .refuse _
    next x hx =>
      split
      · exact .refuse _
      next v =>
        split
        · exact .refuse _
        · exact h _ x v s hs hx rfl

/-! ### The Host Link's commands -/

theorem identifyBody_sound : BodySound identifyBody := fun _ h => h.answer _

theorem readDomainStatusBody_sound : BodySound readDomainStatusBody := fun _ h => (h.mapLink _).answer _

theorem setLinkRateBody_sound (b : Byte) : BodySound (setLinkRateBody b) := fun s h => by
  unfold setLinkRateBody
  split
  · exact .refuse _
  · split
    · exact h.answer _
    · exact (h.mapLink _).answer _

theorem setNoticeModeBody_sound (mode : Byte) (sel : BitVec 16) : BodySound (setNoticeModeBody mode sel) := fun s h => by
  unfold setNoticeModeBody
  split
  · exact .refuse _
  · split
    · exact .refuse _
    · exact (h.mapLink _).answer _

theorem fetchNoticeBody_sound : BodySound fetchNoticeBody := fun s h => by
  unfold fetchNoticeBody
  split
  · exact .refuse _
  · exact h.answer _
  · exact (h.mapLink _).answer _

theorem setPolicyItemBody_sound (item field : Byte) : BodySound (setPolicyItemBody item field) :=
  (setPolicyItemBody_inOrder item field).sound fun s p t hx => by
    unfold setPolicyItemBody at hx
    split at hx
    · cases hx
    · split at hx <;> cases hx
      exact ⟨rfl, rfl, rfl, rfl, rfl⟩

theorem readPolicyBody_sound : BodySound readPolicyBody := fun _ h => h.answer _

theorem readQueueBody_sound : BodySound readQueueBody := readQueueBody_inOrder.sound fun s p t hx => by
  cases hx; exact ⟨rfl, rfl, rfl, rfl, rfl⟩

theorem readTransactionsBody_sound : BodySound readTransactionsBody := readTransactionsBody_inOrder.sound fun s p t hx => by
  cases hx; exact ⟨rfl, rfl, rfl, rfl, rfl⟩

/-! ### Trunk Start and Trunk Stop (R27, R145, R146) -/

/-- Antenna records changed, but for slots and lanes. -/
theorem Sound.setRecords (h : Sound none s) (hst : StoresInOrder t) (hr : t.roster = s.roster) (hc : t.contexts = s.contexts)
    (hp : t.ports = s.ports) (hq : t.queue = s.queue)
    (hf : ∀ b, (t.ant b).slots = (s.ant b).slots ∧ (t.ant b).lanes = (s.ant b).lanes) : Sound none t := by
  have hslot (b : AntennaNo) (sl : SlotNo) : t.slot b sl = s.slot b sl := by rw [State.slot, (hf b).1]; rfl
  have hentry (e : EntryNo) : t.entry e = s.entry e := by rw [State.entry, hr]; rfl
  have hport (b : AntennaNo) : t.port b = s.port b := by rw [State.port, hp]; rfl
  have hctx (c : ContextNo) : t.ctx c = s.ctx c := by rw [State.ctx, hc]; rfl
  refine ⟨hst, .none, fun e _ => (h.beltpack e).kept (f := id) ⟨?_, fun _ => .refl _, hctx, hslot, fun b c => by rw [hport],
    fun hq' => .inl ?_⟩, ?_, fun c hn a => ?_, hq ▸ h.agree.one⟩
  · rw [hentry, Option.map_id]; rfl
  · rwa [HasRequest, hq] at hq'
  · exact h.agree.lanes.of (fun b _ => (hf b).2) (fun b sl _ => by rw [hslot]) fun e => by rw [hentry]
  · rw [hport]
    rw [hctx] at hn
    exact h.agree.freed c hn a

theorem Sound.startPort (h : Sound none s) (hr : s.running = true) (a : AntennaNo) : Sound none (s.startPort a) := by
  refine Sound.beginExchange (Sound.mapPort h a ?_ (h.stores.mapPort a ?_ ?_)) a
  · exact fun _ => rfl
  · exact fun hp => ⟨hp.fifo, hp.waiting⟩
  · exact fun hr' => absurd (hr.symm.trans hr') (by decide)

theorem Sound.startPorts (as : List AntennaNo) (h : Sound none s) (hr : s.running = true) :
    Sound none (as.foldl State.startPort s) := by
  induction as generalizing s with
  | nil => exact h
  | cons a as ih => exact ih (h.startPort hr a) hr

/-- Trunk Start, before the ports probe. -/
theorem Sound.startRecords (h : Sound none s) :
    Sound none { s with running := true, antennas := s.antennas.map fun r => { r with probeMisses := 0, orderMisses := 0 } } := by
  refine h.setRecords ⟨h.stores.policy, h.stores.entries, h.stores.ids, h.stores.strangers, h.stores.queue.of_eq rfl rfl,
    fun a => ?_, h.stores.ports, nofun⟩ rfl rfl rfl rfl fun b => ?_
  · have := (h.stores.antennas a).2.2
    simp only [State.ant, get_map]
    exact ⟨Nat.zero_le _, Nat.zero_le _, this⟩
  · simp only [State.ant, get_map, and_self]

theorem trunkStartBody_sound : BodySound trunkStartBody := fun s h => by
  unfold trunkStartBody
  split
  · exact .refuse _
  · exact (h.startRecords.startPorts (List.finRange 24) rfl).answer _

/-- A beltpack without a transaction that holds no slot. -/
theorem Idle.unheld (he : s.entry e = some x) (hx : x.AtRest) (hs : x.serving = none) (hn : ∀ a sl, ¬ Holds s a sl e)
    (hf : ∀ c y, s.ctx c = some y → y.entry ≠ e) : Idle s e x := by
  refine .of he hx ⟨fun a sl _ hh => absurd hh (hn a sl), fun a sl => ?_⟩ (fun a sl hr => hn a sl (.inl hr)) hf
  rw [hs]
  exact ⟨fun ho => absurd (.inr (.inl ho)) (hn a sl), fun h => (nomatch h)⟩

/-- Trunk Stop leaves no slot held, no transaction, no request and no order. -/
theorem Sound.stopTrunk (h : Sound none s) : Sound none s.stopTrunk := by
  have hentry (e : EntryNo) : s.stopTrunk.entry e = (s.entry e).map Entry.offAir := get_map _ _ e
  have hant (a : AntennaNo) : s.stopTrunk.ant a = (s.ant a).stop := get_map _ _ a
  have hport (a : AntennaNo) : s.stopTrunk.port a = {} := get_map s.ports _ a
  have hctx (c : ContextNo) : s.stopTrunk.ctx c = none := get_map s.contexts _ c
  have hslot (a : AntennaNo) (sl : SlotNo) : s.stopTrunk.slot a sl = .free := by
    rw [State.slot, hant]; exact get_replicate _ _
  have hholds (a : AntennaNo) (sl : SlotNo) (e : EntryNo) : ¬ Holds s.stopTrunk a sl e := by
    rw [Holds, hslot]; exact fun hh => hh.elim (fun h => nomatch h) fun hh => hh.elim (fun h => nomatch h) fun h => nomatch h
  have hfree (e : EntryNo) (c : ContextNo) (y : Context) (hy : s.stopTrunk.ctx c = some y) : y.entry ≠ e := by
    rw [hctx] at hy; cases hy
  refine ⟨h.stores.stopTrunk, .none, fun e _ => ?_, fun a g _ => ?_, fun c _ a => by rw [hport]; rfl, .nil⟩
  · have he := hentry e
    cases hx : s.entry e with
    | none =>
      rw [hx] at he
      exact .absent ⟨he, hfree e, fun a sl => hholds a sl e, fun ⟨r, hr, _⟩ => absurd hr List.not_mem_nil⟩
    | some x =>
      rw [hx] at he
      exact .idle (.unheld he x.offAir_atRest rfl (fun a sl => hholds a sl e) (hfree e))
  · rw [countOf_none fun sl => State.slotLists_free (hslot a sl) g, hant]
    exact laneUsers_empty g

theorem trunkStopBody_sound : BodySound trunkStopBody := fun s h => by
  unfold trunkStopBody
  split
  · exact .refuse _
  · exact (h.stopTrunk.queueNotice _).answer _

/-! ### The antennas (R33 to R42) -/

theorem readAntennaBody_sound (b : Byte) : BodySound (readAntennaBody b) := .withAntenna (fun a s h => by
  refine (Sound.mapAnt h a (h.stores.mapAnt a ?_ ?_) ?_).answer _
  · exact id
  · exact fun _ => rfl
  · exact fun _ => ⟨rfl, rfl⟩) b

/-- A change of the admin state. -/
theorem Sound.setAdmin (h : Sound none s) (a : AntennaNo) (m : AdminState) :
    Sound none (s.changeAntenna a fun r => { r with admin := m }) := by
  refine h.changeAntenna a ?_ ?_ ?_
  · exact fun _ => ⟨rfl, rfl⟩
  · exact id
  · exact fun hr => (h.stores.stopped hr a).1

theorem Sound.serviceAnswer (h : Sound none s) (a : AntennaNo) : ReplySound (serviceAnswer a s) := h.answer _

theorem inServiceBody_sound (b : Byte) : BodySound (inServiceBody b) :=
  .withAntenna (fun a _ h => (h.setAdmin a .inService).serviceAnswer a) b

theorem drainBody_sound (b : Byte) : BodySound (drainBody b) := .withAntenna (fun a s h => by
  split
  · exact .refuse _
  · exact ((h.setAdmin a .outOfService).queueNotice _).serviceAnswer a
  · exact (h.setAdmin a .draining).serviceAnswer a) b

theorem outOfServiceBody_sound (b : Byte) : BodySound (outOfServiceBody b) := .withAntenna (fun a s h => by
  split
  · exact h.serviceAnswer a
  · split
    · exact (h.setAdmin a .outOfService).serviceAnswer a
    · exact .refuse _) b

theorem forceOutBody_sound (b : Byte) : BodySound (forceOutBody b) := .withAntenna (fun a s h => by
  split
  · exact h.serviceAnswer a
  · refine (Sound.changeAndSweep h ⟨?_, ?_, ?_⟩ none).settle.serviceAnswer a
    · exact fun _ => ⟨rfl, rfl⟩
    · exact id
    · exact fun hr => (h.stores.stopped hr a).1) b

theorem clearAntennaFaultBody_sound (b : Byte) : BodySound (clearAntennaFaultBody b) := .withAntenna (fun a s h => by
  split
  · exact .refuse _
  · split
    · refine (h.changeAntenna a ?_ ?_ ?_).answer _
      · exact fun _ => ⟨rfl, rfl⟩
      · exact fun ⟨hp, _, hl⟩ => ⟨hp, Nat.zero_le _, hl⟩
      · exact fun hr => (h.stores.stopped hr a).1
    · exact h.answer _) b

/-! ### Set Port Loopback (R39) -/

/-- The dropped exchange was a probe's, which no context awaits. -/
theorem Port.awaitedBy_withLoopback (p : Port) (c : ContextNo) : p.withLoopback.awaitedBy c = p.awaitedBy c := by
  unfold Port.withLoopback
  split
  next hp => exact Port.awaitedBy_endNoOrder (Port.orderInFlight_of_probe hp) c
  next => rfl

/-- The record and the port under a new mode. -/
theorem Sound.withLoopback (h : Sound none s) (a : AntennaNo) (m : LoopbackMode) :
    Sound none ((s.changeAntenna a (·.withLoopback m)).mapPort a Port.withLoopback) := by
  have hc : Sound none (s.changeAntenna a (·.withLoopback m)) := by
    refine h.changeAntenna a ?_ ?_ fun hr => ?_
    · exact fun _ => ⟨rfl, rfl⟩
    · exact fun ⟨_, _, hl⟩ => ⟨Nat.zero_le _, Nat.zero_le _, hl⟩
    · rw [Antenna.withLoopback, (h.stores.stopped hr a).1]
      exact ite_self _
  refine hc.mapPort a (Port.awaitedBy_withLoopback _) (hc.stores.mapPort a (fun hp => ⟨hp.fifo, hp.waiting⟩) fun _ hs => ⟨?_, hs.2⟩)
  rw [Port.withLoopback, hs.1]
  exact ite_self _

theorem Antenna.flagged_slots (r r' : Antenna) : (r.flagged r').slots = r'.slots := by
  unfold Antenna.flagged; split <;> rfl

theorem AllFree.changeAntenna (h : AllFree s a) {f : Antenna → Antenna} (hf : ∀ r, (f r).slots = r.slots ∧ (f r).changed = r.changed) :
    AllFree (s.changeAntenna a f) a := fun sl => by
  obtain ⟨hslots, hchanged⟩ := hf (s.ant a)
  rw [State.changeAntenna_eq s a hchanged, State.slot_mk, get_set_self, Antenna.flagged_slots, hslots]
  exact h sl

theorem Sound.setLoopback (h : Sound none s) (hf : AllFree s a) (m : LoopbackMode) : Sound none (s.setLoopback a m) := by
  have hw := h.withLoopback a m
  have hfree : AllFree ((s.changeAntenna a (·.withLoopback m)).mapPort a Port.withLoopback) a :=
    hf.changeAntenna fun _ => ⟨rfl, rfl⟩
  unfold State.setLoopback
  simp only
  split
  next hc =>
    have hcarry := (Bool.and_eq_true_iff.mp hc).2
    have ho : (((s.changeAntenna a (·.withLoopback m)).mapPort a Port.withLoopback).ant a).open = false := by
      simp only [Antenna.open, Bool.not_eq_true'] at hcarry ⊢
      rw [hcarry]; rfl
    exact (hw.clearPort ho).emptied hfree
  next => exact hw

theorem setPortLoopbackBody_sound (b mode : Byte) : BodySound (setPortLoopbackBody b mode) := .withAntenna (fun a s h => by
  split
  · exact .refuse _
  · split
    · exact .refuse _
    next hf =>
      split
      · exact h.answer _
      · exact (h.setLoopback ((s.allFree_iff a).mp (by simpa using hf)) _).answer _) b

theorem injectBody_sound (b : Byte) (k : ReportKind) (fields : List Byte) : BodySound (injectBody b k fields) :=
  .withAntenna (fun a s h => by
    split
    · exact .refuse _
    · split
      · exact .refuse _
      · exact (h.takeReport a _).answer _) b

theorem antennaServiceBody_sound (b action : Byte) : BodySound (antennaServiceBody b action) := by
  unfold antennaServiceBody
  split
  · exact inServiceBody_sound b
  · exact drainBody_sound b
  · exact outOfServiceBody_sound b
  · exact forceOutBody_sound b
  · exact fun _ _ => .refuse _

theorem injectReportBody_sound (b kind : Byte) (fields : List Byte) : BodySound (injectReportBody b kind fields) := by
  unfold injectReportBody
  split
  · exact injectBody_sound b _ fields
  · exact fun _ _ => .refuse _

end Sys2Proof.Machine
end

section
/-! Every step keeps transactions in order, part seventeen: the commands about beltpacks, and the command of a frame. -/

namespace Sys2Proof.Machine

variable {s t u : State} {a b : AntennaNo} {sl : SlotNo} {e e' : EntryNo} {x x' : Entry} {c : ContextNo} {y : Context}
  {body : State → CommandReply} {w : Option AntennaNo}

/-! ### Entries that no slot names (R4, R5) -/

theorem State.slotLists_beside (hs : t.slot a sl = s.slot a sl) (hr : ∀ e', e' ≠ e → t.entry e' = s.entry e')
    (hn : (s.slot a sl).entry? ≠ some e) (g : Group) : t.slotLists a g sl = s.slotLists a g sl := by
  rw [State.slotLists_eq, State.slotLists_eq, hs]
  cases he : (s.slot a sl).entry? with
  | none => rfl
  | some e' => rw [Option.bind_some, Option.bind_some, hr e' fun h => hn (by rw [he, h])]

/-- An entry that no slot names is written: no lane counted its groups. -/
theorem workStep_putEntry (hn : ∀ a sl, ¬ Holds s a sl e) (v : Option Entry) : WorkStep w e none s (s.putEntry e v) where
  entries _ he := State.entry_putEntry_ne _ _ (Ne.symm he)
  contexts _ _ := rfl
  own := fun _ _ h => (nomatch h)
  owned := fun _ _ h => (nomatch h)
  slots _ _ _ _ _ _ := .rfl
  orders _ _ _ := rfl
  requests _ _ h := h
  lanes h a g ha := (h a g ha).trans (congrArg countOf (funext fun sl =>
    (State.slotLists_beside (s := s) (t := s.putEntry e v) (e := e) rfl (fun _ he => State.entry_putEntry_ne _ _ (Ne.symm he))
      (fun hs => hn a sl (holds_iff.mpr hs)) g).symm))
  one h := h
  freed := fun _ h => (nomatch h)

theorem Sound.putEntry (h : Sound w s) (hn : ∀ a sl, ¬ Holds s a sl e) {v : Option Entry} (hst : StoresInOrder (s.putEntry e v))
    (hb : Beltpack w s e → Beltpack w (s.putEntry e v) e) : Sound w (s.putEntry e v) :=
  h.change (workStep_putEntry hn v) hst h.closed hb

theorem newEntry_atRest (id : BeltpackId) (k : ClassNo) (g : Option Group × Option Group) : (newEntry id k g).AtRest :=
  .of ⟨fun h => absurd rfl h, fun h => absurd rfl h, fun h => (nomatch h)⟩ rfl (.inr (.inr rfl)) rfl

/-- An entry enters the roster at an index that nothing names. -/
theorem Sound.enrol (h : Sound none s) (he : s.entry e = none) {id : BeltpackId} {k : ClassNo} {g : Option Group × Option Group}
    (hst : StoresInOrder (s.putEntry e (some (newEntry id k g)))) : Sound none (s.putEntry e (some (newEntry id k g))) := by
  cases h.beltpack e with
  | idle hi => rw [hi.entry] at he; cases he
  | busy hb _ => rw [hb.entry] at he; cases he
  | absent hn =>
    refine h.putEntry hn.slots hst fun _ => .idle (.unheld (State.entry_putEntry_self _ _ _) (newEntry_atRest id k g) rfl ?_ ?_)
    · exact hn.slots
    · exact hn.free

theorem enrolBody_sound (id : BeltpackId) (cls ga gb : Byte) : BodySound (enrolBody id cls ga gb) := fun s h => by
  unfold enrolBody
  split
  next k g hid hk hg =>
    split
    · exact .refuse _
    next hfound =>
      split
      · exact .refuse _
      next e he =>
        have hunknown : UnknownId s id := State.findId_none.mp (by simpa using hfound)
        have hput := h.enrol (State.lowestIndex_some.mp he).1 (h.stores.putNew (newEntry_inOrder hid hg k) hunknown)
        have hsub : (s.strangers.filter (· != id)).Sublist s.strangers := List.filter_sublist
        have hst := hput.stores
        exact .leaves (hput.kept ⟨hst.policy, hst.entries, hst.ids, ⟨hsub.length_le.trans h.stores.strangers.1,
          h.stores.strangers.2.sublist hsub⟩, hst.queue.of_eq rfl rfl, hst.antennas, hst.ports, hst.stopped⟩)
  next => exact .refuse _

/-- A beltpack without transaction, unsettled slot and serving slot holds no slot. -/
theorem Idle.holds_iff (hi : Idle s e x) (hu : ¬ Unsettled s e) : Holds s a sl e ↔ x.serving = some (a, sl) := by
  rw [← hi.holding.occupied a sl]
  refine ⟨fun hh => ?_, fun ho => .inr (.inl ho)⟩
  rcases hh with hr | ho | hr
  · exact absurd ⟨a, sl, .inl hr⟩ hu
  · exact ho
  · exact absurd ⟨a, sl, .inr hr⟩ hu

theorem Idle.unheld_of (hi : Idle s e x) (hin : EntryInOrder x) (hu : ¬ Unsettled s e) (hst : x.state ≠ .served) (a : AntennaNo)
    (sl : SlotNo) : ¬ Holds s a sl e := by
  rw [hi.holds_iff hu, hi.serving_none hin hst]
  exact fun h => nomatch h

theorem Sound.withdraw (h : Sound none s) (hi : Idle s e x) (hu : ¬ Unsettled s e) (hst : x.state ≠ .served) :
    Sound none ((s.removeRequest e).putEntry e none) := by
  have hr := h.removeRequest e
  have hn := hi.unheld_of (h.stores.entries e x hi.entry) hu hst
  refine hr.putEntry hn (hr.stores.withdraw e) fun _ => .absent ⟨State.entry_putEntry_self _ _ _, hi.free, hn, ?_⟩
  exact fun ⟨_, hq, he⟩ => (mem_dropRequest.mp hq).2 he

theorem withdrawBody_sound (ref : BeltpackRef) : BodySound (withdrawBody ref) :=
  .withBeltpack (fun e x v s h hx _ => by
    split
    · exact .refuse _
    next htr =>
      obtain ⟨hc, hu⟩ := not_or.mp (mt inTransit_iff.mpr htr)
      have hi := h.idle hx (not_not.mp hc)
      split
      next hst => exact (h.withdraw hi hu (by rw [hst]; decide)).answer _
      next hst => exact (h.withdraw hi hu (by rw [hst]; decide)).answer _
      all_goals exact .refuse _) ref true

/-! ### Set Groups (R19, R55, R56) -/

/-- What Set Groups does to a Served beltpack: its groups, and the lanes of its antenna. -/
def State.regrouped (s : State) (a : AntennaNo) (e : EntryNo) (x : Entry) (g : Option Group × Option Group) : State :=
  { s with
    roster := s.roster.set e (some (x.withGroups g)),
    antennas := s.antennas.set a { s.ant a with
      lanes := Lanes.regroup (s.ant a).lanes (presentGroups x.groupA x.groupB) (presentGroups g.1 g.2) } }

section
variable {g : Option Group × Option Group}

theorem State.entry_regrouped_self : (s.regrouped a e x g).entry e = some (x.withGroups g) := get_set_self _ _ _

theorem State.entry_regrouped_ne (h : e' ≠ e) : (s.regrouped a e x g).entry e' = s.entry e' := get_set_ne _ _ (Ne.symm h)

theorem State.lanes_regrouped_self : ((s.regrouped a e x g).ant a).lanes =
    Lanes.regroup (s.ant a).lanes (presentGroups x.groupA x.groupB) (presentGroups g.1 g.2) := by
  simp only [State.regrouped, State.ant, get_set_self]

theorem State.lanes_regrouped_ne (h : a ≠ b) : ((s.regrouped a e x g).ant b).lanes = (s.ant b).lanes := by
  simp only [State.regrouped, State.ant, get_set_ne _ _ h]

theorem State.slot_regrouped (b : AntennaNo) (bsl : SlotNo) : (s.regrouped a e x g).slot b bsl = s.slot b bsl := by
  by_cases hab : a = b
  · subst hab; simp only [State.regrouped, State.slot, State.ant, get_set_self]
  · simp only [State.regrouped, State.slot, State.ant, get_set_ne _ _ hab]

/-- The serving antenna's lanes count the new groups in the place of the old ones. -/
theorem LanesCount.regrouped (h : LanesCount none s) (he : s.entry e = some x) (hx : EntryInOrder x)
    (hl : LanesApart (s.ant a).lanes) (hh : ∀ b bsl, Holds s b bsl e ↔ a = b ∧ sl = bsl) (hg : (presentGroups g.1 g.2).Nodup)
    (hc : Lanes.canRegroup (s.ant a).lanes (presentGroups x.groupA x.groupB) (presentGroups g.1 g.2) = true) :
    LanesCount none (s.regrouped a e x g) := by
  have hbeside {b : AntennaNo} {bsl : SlotNo} (hab : ¬ (a = b ∧ sl = bsl)) (k : Group) :
      (s.regrouped a e x g).slotLists b k bsl = s.slotLists b k bsl :=
    State.slotLists_beside (State.slot_regrouped b bsl) (fun e' => State.entry_regrouped_ne)
      (fun hs => hab ((hh b bsl).mp (Machine.holds_iff.mpr hs))) k
  have hat : (s.slot a sl).entry? = some e := Machine.holds_iff.mp ((hh a sl).mpr ⟨rfl, rfl⟩)
  have hat' : ((s.regrouped a e x g).slot a sl).entry? = some e := by rw [State.slot_regrouped]; exact hat
  intro b k _
  by_cases hab : a = b
  · subst hab
    have hcount := countOf_change (f := s.slotLists a k) (g := (s.regrouped a e x g).slotLists a k) sl fun j hj =>
      hbeside (fun h => hj h.2) k
    rw [State.slotLists_held hat he, State.slotLists_held hat' State.entry_regrouped_self] at hcount
    have husers := (hl.regroup hx.nodup hg hc).2.1 k
    have hnew : (x.withGroups g).lists k = true ↔ k ∈ presentGroups g.1 g.2 := Entry.lists_iff _ _
    simp only [← x.lists_iff, ← hnew] at husers
    have hold := h a k nofun
    rw [State.lanes_regrouped_self]
    cases hxk : x.lists k with
    | false =>
      rw [hxk] at husers hcount
      cases hyk : (x.withGroups g).lists k <;> simp [hyk] at husers hcount <;> omega
    | true =>
      have hpos : 1 ≤ countOf (s.slotLists a k) := List.length_pos_of_mem (a := sl)
        (List.mem_filter.mpr ⟨List.mem_finRange _, by rw [State.slotLists_held hat he]; exact hxk⟩)
      rw [hxk] at husers hcount
      cases hyk : (x.withGroups g).lists k <;> simp [hyk] at husers hcount <;> omega
  · rw [State.lanes_regrouped_ne hab, h b k nofun]
    exact congrArg countOf (funext fun bsl => (hbeside (fun h => hab h.1) k).symm)

theorem workStep_regrouped (hlanes : LanesCount none s → LanesCount none (s.regrouped a e x g)) :
    WorkStep none e none s (s.regrouped a e x g) where
  entries _ he := State.entry_regrouped_ne he
  contexts _ _ := rfl
  own := fun _ _ h => (nomatch h)
  owned := fun _ _ h => (nomatch h)
  slots b bsl _ _ _ _ := by rw [State.slot_regrouped]
  orders _ _ _ := rfl
  requests _ _ h := h
  lanes := hlanes
  one h := h
  freed := fun _ h => (nomatch h)

/-- The groups do not matter to a beltpack at rest. -/
theorem Entry.AtRest.withGroups (h : x.AtRest) (g : Option Group × Option Group) : (x.withGroups g).AtRest :=
  ⟨⟨h.timed.settle, h.timed.lost, h.timed.window⟩, h.context, h.still, h.window⟩

theorem Sound.regrouped (h : Sound none s) (hi : Idle s e x) (hu : ¬ Unsettled s e) (hs : x.serving = some (a, sl))
    (hg : (presentGroups g.1 g.2).Nodup)
    (hc : Lanes.canRegroup (s.ant a).lanes (presentGroups x.groupA x.groupB) (presentGroups g.1 g.2) = true)
    (hst : StoresInOrder (s.regrouped a e x g)) : Sound none (s.regrouped a e x g) := by
  have hh (b : AntennaNo) (bsl : SlotNo) : Holds s b bsl e ↔ a = b ∧ sl = bsl := by
    rw [hi.holds_iff hu, hs, Option.some.injEq, Prod.mk.injEq]
  have hin := h.stores.entries e x hi.entry
  refine h.change (workStep_regrouped fun hl => hl.regrouped hi.entry hin (h.stores.antennas a).2.2 hh hg hc) hst .none
    fun _ => .idle (x := x.withGroups g) (.of State.entry_regrouped_self (hi.atRest.withGroups g)
      (hi.holding.of_slots State.slot_regrouped) (fun b bsl => ?_) hi.free)
  rw [State.slot_regrouped]
  exact hi.unreserved b bsl

/-- New groups of a beltpack that holds no slot. -/
theorem Sound.regroup_unheld (h : Sound none s) (hi : Idle s e x) (hn : ∀ a sl, ¬ Holds s a sl e)
    (hst : StoresInOrder (s.putEntry e (some (x.withGroups g)))) : Sound none (s.putEntry e (some (x.withGroups g))) :=
  h.putEntry hn hst fun _ => .idle (x := x.withGroups g) (.of (State.entry_putEntry_self _ _ _) (hi.atRest.withGroups g)
    (hi.holding.of_slots fun _ _ => rfl) hi.unreserved hi.free)

end

theorem ReplyInOrder.stores {p : List Byte} (h : ReplyInOrder s (.answer p t)) : StoresInOrder t := by
  cases h with
  | leaves ht _ => exact ht

theorem regroup_sound {g : Option Group × Option Group} (hg : g.1 ≠ some 0 ∧ g.2 ≠ some 0 ∧ (g.1 = none ∨ g.1 ≠ g.2))
    (h : Sound none s) (hx : s.entry e = some x) : ReplySound (regroup e x g s) := by
  have hord := regroup_inOrder hg h.stores hx
  have hin := h.stores.entries e x hx
  by_cases htr : x.context ≠ none ∨ Unsettled s e
  · rw [regroup, if_pos (inTransit_iff.mpr htr)]
    exact .refuse _
  obtain ⟨hc, hu⟩ := not_or.mp htr
  have hi := h.idle hx (not_not.mp hc)
  by_cases hst : x.state = .served
  · obtain ⟨⟨a, sl⟩, hs⟩ := Option.isSome_iff_exists.mp (hin.serving.mpr (.inl hst))
    rw [regroup_served hx htr hst hs] at hord ⊢
    split at hord
    next hcan =>
      rw [if_pos hcan]
      exact .leaves (h.regrouped hi hu hs (presentGroups_nodup hg.2.2) hcan hord.stores)
    next hcan => rw [if_neg hcan]; exact .refuse _
  · rw [regroup_offAir hx htr hst] at hord ⊢
    exact .leaves (h.regroup_unheld hi (hi.unheld_of hin hu hst) hord.stores)

theorem setGroupsBody_sound (ref : BeltpackRef) (ga gb : Byte) : BodySound (setGroupsBody ref ga gb) :=
  .withBeltpack (fun _ _ _ _ h hx hv => regroup_sound (groups?_inOrder hv) h hx) ref true

/-! ### Marks of an entry (R19 to R21, R22) -/

/-- A mark of an entry that neither the stores' order nor the transactions read. -/
theorem Sound.setMark (h : Sound w s) (e : EntryNo) {f : Entry → Entry} (hf : ∀ x, (f x).Alike x)
    (hg : ∀ x, (f x).id = x.id ∧ (f x).groupA = x.groupA ∧ (f x).groupB = x.groupB ∧ (f x).survey = x.survey) :
    Sound w (s.mapEntry e f) :=
  Sound.mapMarks h e (h.stores.mapEntry e (fun x _ hx => hx.of_eq (hg x).1 (hg x).2.1 (hg x).2.2.1 (hf x).state (hf x).serving
    (hg x).2.2.2) fun x => (hg x).1) hf fun x => ⟨(hg x).2.1, (hg x).2.2.1⟩

theorem setClassBody_sound (ref : BeltpackRef) (cls : Byte) : BodySound (setClassBody ref cls) :=
  .withBeltpack (fun e _ _ _ h _ _ => by
    refine (Sound.setMark h e ?_ ?_).answer _
    · exact fun _ => ⟨rfl, rfl, rfl, rfl, rfl, rfl⟩
    · exact fun _ => ⟨rfl, rfl, rfl, rfl⟩) ref true

theorem setPinBody_sound (ref : BeltpackRef) (pin : Byte) : BodySound (setPinBody ref pin) :=
  .withBeltpack (fun e _ _ _ h _ _ => by
    refine (Sound.setMark h e ?_ ?_).answer _
    · exact fun _ => ⟨rfl, rfl, rfl, rfl, rfl, rfl⟩
    · exact fun _ => ⟨rfl, rfl, rfl, rfl⟩) ref true

theorem setAdmissionBody_sound (ref : BeltpackRef) (v : Byte) : BodySound (setAdmissionBody ref v) :=
  .withBeltpack (fun e _ _ _ h _ _ => by
    refine (Sound.setMark h e ?_ ?_).answer _
    · exact fun _ => ⟨rfl, rfl, rfl, rfl, rfl, rfl⟩
    · exact fun _ => ⟨rfl, rfl, rfl, rfl⟩) ref false

theorem readBeltpackBody_sound (ref : BeltpackRef) : BodySound (readBeltpackBody ref) :=
  .withBeltpack (fun _ _ _ _ h _ _ => h.answer _) ref false

theorem readConditionsBody_sound (ref : BeltpackRef) : BodySound (readConditionsBody ref) :=
  .withBeltpack (fun e _ _ _ h _ _ => by
    refine (Sound.setMark h e ?_ ?_).answer _
    · exact fun _ => ⟨rfl, rfl, rfl, rfl, rfl, rfl⟩
    · exact fun _ => ⟨rfl, rfl, rfl, rfl⟩) ref false

theorem Sound.clearPosting (h : Sound w s) (e : EntryNo) : Sound w (s.clearPosting e) := by
  refine Sound.mapMarks h e (h.stores.clearPosting e) ?_ ?_
  · exact fun _ => ⟨rfl, rfl, rfl, rfl, rfl, rfl⟩
  · exact fun _ => ⟨rfl, rfl⟩

/-! ### Direct Handoff, Cancel Request, Detach (R178, R111, R16) -/

theorem directHandoffBody_sound (ref : BeltpackRef) (b : Byte) : BodySound (directHandoffBody ref b) :=
  .withBeltpack (fun e _ _ _ h _ _ => by
    split
    · exact .refuse _
    · split
      · exact .refuse _
      · split
        · exact .refuse _
        · split
          · exact .refuse _
          · exact (h.raiseRequest e _).settle.answer _) ref true

theorem cancelBody_sound (ref : BeltpackRef) : BodySound (cancelBody ref) :=
  .withBeltpack (fun e x _ s h hx _ => by
    split
    · exact (h.removeRequest e).answer _
    · split
      · exact .refuse _
      next c hc =>
        split
        · exact .refuse _
        next y hy =>
          split
          next hp =>
            obtain ⟨y', hb, ha⟩ := h.busy hx hc
            obtain rfl := Option.some.inj (hy.symm.trans hb.ctx)
            exact (h.working hb ha (by rw [hp]; decide)).stop.settle.answer _
          · exact .refuse _) ref true

theorem detachBody_sound (ref : BeltpackRef) : BodySound (detachBody ref) :=
  .withBeltpack (fun e x _ s h hx _ => by
    split
    · exact .refuse _
    next hc => exact (h.detach (h.idle hx (by simpa using hc))).answer _) ref true

/-! ### Posted faults (R130 to R132) -/

theorem resolveBody_sound {k : EntryNo → Entry → PostedFault → State → CommandReply}
    (h : ∀ e x p s, Sound none s → s.entry e = some x → ReplySound (k e x p s)) (ref : BeltpackRef) : BodySound (resolveBody ref k) :=
  .withBeltpack (fun e x _ s hs hx _ => by
    split
    · exact .refuse _
    · exact h e x _ s hs hx) ref false

theorem dismissBody_sound (ref : BeltpackRef) : BodySound (dismissBody ref) :=
  resolveBody_sound (fun e _ _ _ h _ => (h.clearPosting e).answer _) ref

theorem resolveRaise_sound (h : Sound none s) (e : EntryNo) (x : Entry) (v : Raise) : ReplySound (resolveRaise e x v s) := by
  unfold resolveRaise
  split
  · exact .refuse _
  · split
    · exact .refuse _
    · exact ((h.clearPosting e).raiseRequest e v).settle.answer _

theorem retryBody_sound (ref : BeltpackRef) : BodySound (retryBody ref) :=
  resolveBody_sound (fun e x _ _ h _ => resolveRaise_sound h e x _) ref

theorem nextBody_sound (ref : BeltpackRef) : BodySound (nextBody ref) :=
  resolveBody_sound (fun e x _ _ h _ => resolveRaise_sound h e x _) ref

theorem resolveDetachBody_sound (ref : BeltpackRef) : BodySound (resolveDetachBody ref) :=
  resolveBody_sound (fun e x _ s h hx => by
    split
    · exact .refuse _
    next hc =>
      have hcleared : (s.clearPosting e).entry e = some { x with posted := none } := by
        rw [State.clearPosting, State.entry_mapEntry_self, hx]; rfl
      have hp := h.clearPosting e
      exact (hp.detach (hp.idle hcleared (by simpa using hc))).answer _) ref

theorem resolveFaultBody_sound (ref : BeltpackRef) (action : Byte) : BodySound (resolveFaultBody ref action) := by
  unfold resolveFaultBody
  split
  · exact dismissBody_sound ref
  · exact retryBody_sound ref
  · exact nextBody_sound ref
  · exact resolveDetachBody_sound ref
  · exact .withBeltpack (fun _ _ _ _ _ _ _ => .refuse _) ref false

/-! ### The command of a frame (12.3) -/

theorem commandOf_sound (code : Byte) (p : List Byte) : (commandOf code p).All BodySound := by
  unfold commandOf
  split
  · exact params0_all p identifyBody_sound
  · exact params0_all p readDomainStatusBody_sound
  · exact params1_all p setLinkRateBody_sound
  · unfold paramsNoticeMode; split
    · exact setNoticeModeBody_sound _ _
    · trivial
  · exact params0_all p fetchNoticeBody_sound
  · exact params2_all p setPolicyItemBody_sound
  · exact params0_all p readPolicyBody_sound
  · exact params0_all p trunkStartBody_sound
  · exact params0_all p trunkStopBody_sound
  · exact params1_all p readAntennaBody_sound
  · exact params2_all p antennaServiceBody_sound
  · exact params1_all p clearAntennaFaultBody_sound
  · exact params2_all p setPortLoopbackBody_sound
  · unfold paramsInject; split
    · exact injectReportBody_sound _ _ _
    · exact injectReportBody_sound _ _ _
    · exact injectReportBody_sound _ _ _
    · trivial
  · unfold paramsEnrol; split
    · exact enrolBody_sound _ _ _ _
    · trivial
  · exact params0Ref_all p withdrawBody_sound
  · exact params0Ref_all p readBeltpackBody_sound
  · exact params2Ref_all p setGroupsBody_sound
  · exact params1Ref_all p setClassBody_sound
  · exact params1Ref_all p setPinBody_sound
  · exact params1Ref_all p directHandoffBody_sound
  · exact params0Ref_all p cancelBody_sound
  · exact params0Ref_all p detachBody_sound
  · exact params0Ref_all p readConditionsBody_sound
  · exact params1Ref_all p resolveFaultBody_sound
  · exact params1Ref_all p setAdmissionBody_sound
  · exact params0_all p readQueueBody_sound
  · exact params0_all p readTransactionsBody_sound
  · trivial

end Sys2Proof.Machine
end

section
/-! Every step keeps transactions in order, part eighteen: bytes of the host line, and every row. -/

namespace Sys2Proof.Machine

variable {s t u : State} {code : Byte} {body : State → CommandReply}

/-! ### The host line (R164 to R169) -/

theorem Sound.refuseHostFrame (h : Sound none s) (code : Byte) (r : RefusalCode) : Sound none (s.refuseHostFrame code r) :=
  ((h.mapLink _).mapLink _).wake

theorem Sound.reply (h : Sound none s) (f : HostFrame) : Sound none (s.reply f) := (h.mapLink _).wake

theorem Sound.runCommand (h : Sound none s) (hbody : BodySound body) (code : Byte) : Sound none (s.runCommand code body) := by
  unfold State.runCommand
  split
  · exact h.refuseHostFrame code _
  · have ha : Sound none (s.accept code) := (h.mapLink _).mapLink _
    have hr := hbody _ ha
    cases hb : body (s.accept code) with
    | refuse r => exact ha.reply _
    | answer p t =>
      rw [hb] at hr
      exact hr.state.reply _

theorem Sound.endCommandFrame (h : Sound none s) (code : Byte) (p : List Byte) : Sound none (s.endCommandFrame code p) := by
  have hall := commandOf_sound code p
  unfold State.endCommandFrame
  split
  · exact h.refuseHostFrame code _
  · exact h.refuseHostFrame code _
  next body hb =>
    rw [hb] at hall
    exact h.runCommand hall code

theorem Sound.endFrame (h : Sound none s) (kind code length : Byte) (tail : List Byte) :
    Sound none (s.endFrame kind code length tail) := by
  unfold State.endFrame
  split
  · exact h.refuseHostFrame code _
  · split
    · exact h.refuseHostFrame code _
    · exact h.endCommandFrame code _

theorem Sound.takeFrameByte (h : Sound none s) (bytes : List Byte) : Sound none (s.takeFrameByte bytes) := by
  unfold State.takeFrameByte
  simp only
  split
  · split
    · exact h.refuseHostFrame _ _
    · split
      · exact h.endFrame _ _ _ _
      · exact h.mapLink _
  · exact h.mapLink _

theorem Sound.takeRxdByte (h : Sound none s) (b : Byte) : Sound none (s.takeRxdByte b) := by
  unfold State.takeRxdByte
  split
  · split
    · exact h.mapLink _
    · exact h
  · exact h.takeFrameByte _

theorem Sound.expireGap (h : Sound none s) : Sound none s.expireGap := by
  unfold State.expireGap
  split
  · exact h
  · exact h.refuseHostFrame _ _

/-! ### Every row -/

theorem Sound.hostCommand (h : Sound none s) (hbody : BodySound body) (hx : hostCommand code body s = .next t) : Sound none t := by
  injection hx with hx
  exact hx ▸ h.wake.runCommand hbody code

theorem sound_reset : Sound none State.reset :=
  ⟨(inOrder_iff.mp reset_inOrder).2, .none, .of_transactions reset_transactionsInOrder⟩

/-- Every row of the model keeps all beltpacks in agreement. -/
theorem Sound.ofExec {i : Instr} (h : Sound none s) (hx : exec i s = .next t) : Sound none t := by
  have of {u : State} (hu : Sound none u) (he : exec i s = .next u) : Sound none t := by
    rw [he] at hx; injection hx with hx; exact hx ▸ hu
  cases i with
  | reset => exact of (sound_reset.kept sound_reset.stores.of_kept) rfl
  | identify => exact h.hostCommand identifyBody_sound hx
  | readDomainStatus => exact h.hostCommand readDomainStatusBody_sound hx
  | setLinkRate b => exact h.hostCommand (setLinkRateBody_sound b) hx
  | setNoticeMode m sel => exact h.hostCommand (setNoticeModeBody_sound m sel) hx
  | fetchNotice => exact h.hostCommand fetchNoticeBody_sound hx
  | setPolicyItem i f => exact h.hostCommand (setPolicyItemBody_sound i f) hx
  | readPolicy => exact h.hostCommand readPolicyBody_sound hx
  | trunkStart => exact h.hostCommand trunkStartBody_sound hx
  | trunkStop => exact h.hostCommand trunkStopBody_sound hx
  | readAntenna b => exact h.hostCommand (readAntennaBody_sound b) hx
  | inServiceAction b => exact h.hostCommand (inServiceBody_sound b) hx
  | drainAction b => exact h.hostCommand (drainBody_sound b) hx
  | outOfServiceAction b => exact h.hostCommand (outOfServiceBody_sound b) hx
  | forceOut b => exact h.hostCommand (forceOutBody_sound b) hx
  | clearAntennaFault b => exact h.hostCommand (clearAntennaFaultBody_sound b) hx
  | setPortLoopback b m => exact h.hostCommand (setPortLoopbackBody_sound b m) hx
  | injectSighting b f => exact h.hostCommand (injectBody_sound b _ f) hx
  | injectSeek b f => exact h.hostCommand (injectBody_sound b _ f) hx
  | injectArrival b f => exact h.hostCommand (injectBody_sound b _ f) hx
  | injectSignOff b f => exact h.hostCommand (injectBody_sound b _ f) hx
  | enrolBeltpack id c ga gb => exact h.hostCommand (enrolBody_sound id c ga gb) hx
  | withdrawBeltpack ref => exact h.hostCommand (withdrawBody_sound ref) hx
  | readBeltpack ref => exact h.hostCommand (readBeltpackBody_sound ref) hx
  | setGroups ref ga gb => exact h.hostCommand (setGroupsBody_sound ref ga gb) hx
  | setClass ref c => exact h.hostCommand (setClassBody_sound ref c) hx
  | setPin ref p => exact h.hostCommand (setPinBody_sound ref p) hx
  | directHandoff ref b => exact h.hostCommand (directHandoffBody_sound ref b) hx
  | cancelRequest ref => exact h.hostCommand (cancelBody_sound ref) hx
  | detachBeltpack ref => exact h.hostCommand (detachBody_sound ref) hx
  | readConditions ref => exact h.hostCommand (readConditionsBody_sound ref) hx
  | resolveFaultDismiss ref => exact h.hostCommand (dismissBody_sound ref) hx
  | resolveFaultRetry ref => exact h.hostCommand (retryBody_sound ref) hx
  | resolveFaultNext ref => exact h.hostCommand (nextBody_sound ref) hx
  | resolveFaultDetach ref => exact h.hostCommand (resolveDetachBody_sound ref) hx
  | setAdmission ref v => exact h.hostCommand (setAdmissionBody_sound ref v) hx
  | readQueue => exact h.hostCommand readQueueBody_sound hx
  | readTransactions => exact h.hostCommand readTransactionsBody_sound hx
  | receiveError code error => exact of (h.wake.refuseHostFrame code _) rfl
  | gapTimerExpiry => exact of h.wake.expireGap rfl
  | commandFrameLost code p => exact of (h.wake.endCommandFrame code p) rfl
  | frameSent => exact of (h.wake.mapLink HostLink.finishFrame).wake rfl
  | rxdByteTaken b => exact of (h.wake.takeRxdByte b) rfl
  | _ => exact Sound.event rfl h.wake hx

/-- Settles O40: a step from a state in order keeps slots, transactions and requests in agreement, beltpack by beltpack. -/
theorem everyStepKeepsTransactionsInOrder : Obligations.EveryStepKeepsTransactionsInOrder := by
  intro s t h hT hstep
  have hs : Sound none s := ⟨(inOrder_iff.mp h).2, .none, agreeBut_iff.mpr hT⟩
  cases hp : s.pending with
  | nil =>
    rw [step_idle hp] at hstep
    injection hstep with hstep
    exact hstep ▸ hT
  | cons i cs =>
    rw [step_front hp] at hstep
    have hpending : Sound none { s with pending := cs } := hs.kept hs.stores.of_kept
    exact agreeBut_iff.mp (hpending.ofExec hstep).agree

end Sys2Proof.Machine
end
